-- ==== Sys2Proof/Word.lean ====
section
/-! DEFINITION. The word and byte types of the block (00_scope.md R5, R11, R12). -/

namespace Sys2Proof

/-- A 32-bit word: a cipher word, the block counter, a command word or response data. -/
abbrev Word := BitVec 32

/-- A byte of the key, the nonce, the staging registers or the keystream. -/
abbrev Byte := BitVec 8

end Sys2Proof
end

