-- ==== Sys2Proof/Syntax.lean ====
section
/-! DEFINITION. The nine commands of spec/opcode_table.json, with their operands as 30_encoding.md R72 takes them
from the command word. -/

namespace Sys2Proof

/-- A command. `idx` is the byte `cmd[15:8]` and `imm` the byte `cmd[7:0]` (R72); which indices are legal is
`Instr.wellFormed` (R73). -/
inductive Instr where
  /-- Write one staging key byte (R170). -/
  | wkey (idx imm : Byte)
  /-- Write one staging nonce byte (R172). -/
  | wnonce (idx imm : Byte)
  /-- Write the staging round count (R174). -/
  | wrounds (imm : Byte)
  /-- Construct from the staging registers (R177). -/
  | initk
  /-- Construct from entropy: the issue step (R183). -/
  | inite
  /-- Serve the next keystream byte (R150). -/
  | nextb
  /-- Read the status word (R201). -/
  | rdstat
  /-- Read the block counter (R202). -/
  | rdctr
  /-- Destroy the generator and zero every secret (R188). -/
  | zero
deriving DecidableEq, Repr

end Sys2Proof
end

