-- ==== Sys2Proof/WellFormed.lean ====
section
/-! DEFINITION. The operand ranges of 30_encoding.md R73. -/

namespace Sys2Proof

/-- The operands lie in the ranges of R73: a key index 0..31, a nonce index 0..11, every byte for `IMM`. -/
def Instr.wellFormed : Instr → Bool
  | .wkey idx _ => decide (idx.toNat ≤ 31)
  | .wnonce idx _ => decide (idx.toNat ≤ 11)
  | .wrounds _ => true
  | .initk => true
  | .inite => true
  | .nextb => true
  | .rdstat => true
  | .rdctr => true
  | .zero => true

end Sys2Proof
end

