-- ==== Sys2Proof/Decode.lean ====
section
/-! DEFINITION. The decoder (30_encoding.md R80 to R83) and the encoder (R90), each written from its own rule. -/

namespace Sys2Proof

/-- `OP = cmd[31:28]` (R70). -/
def opField (cmd : Word) : BitVec 4 := cmd.extractLsb' 28 4

/-- `RSV = cmd[27:16]` (R70). -/
def rsvField (cmd : Word) : BitVec 12 := cmd.extractLsb' 16 12

/-- `IDX = cmd[15:8]` (R70). -/
def idxField (cmd : Word) : Byte := cmd.extractLsb' 8 8

/-- `IMM = cmd[7:0]` (R70). -/
def immField (cmd : Word) : Byte := cmd.extractLsb' 0 8

/-- Why a word is `Illegal` (60_exceptions.md R212 lists the causes). The core reports the same code for each. -/
inductive Illegal where
  /-- `RSV` is not zero (R82). -/
  | reservedBits
  /-- `OP` is `0x0` or `0xA` to `0xF` (R81). -/
  | reservedOpcode
  /-- `IDX` is past the last staging byte (R80). -/
  | indexOutOfRange
  /-- `IDX` or `IMM` is not zero in a command that does not take it (R82). -/
  | unusedOperand
deriving DecidableEq, Repr

/-- A command that takes neither `IDX` nor `IMM`: both must be zero (R80, R82). -/
def decodeBare (i : Instr) (cmd : Word) : Except Illegal Instr :=
  if idxField cmd = 0 ∧ immField cmd = 0 then .ok i else .error .unusedOperand

/-- The decoder of R80, total on all 2^32 words; a word with no meaning is rejected under the name of its cause. -/
def decode (cmd : Word) : Except Illegal Instr :=
  if rsvField cmd ≠ 0 then .error .reservedBits
  else
    match (opField cmd).toNat with
    | 0x1 =>
      if (idxField cmd).toNat ≤ 31 then .ok (.wkey (idxField cmd) (immField cmd)) else .error .indexOutOfRange
    | 0x2 =>
      if (idxField cmd).toNat ≤ 11 then .ok (.wnonce (idxField cmd) (immField cmd)) else .error .indexOutOfRange
    | 0x3 => if idxField cmd = 0 then .ok (.wrounds (immField cmd)) else .error .unusedOperand
    | 0x4 => decodeBare .initk cmd
    | 0x5 => decodeBare .inite cmd
    | 0x6 => decodeBare .nextb cmd
    | 0x7 => decodeBare .rdstat cmd
    | 0x8 => decodeBare .rdctr cmd
    | 0x9 => decodeBare .zero cmd
    | _ => .error .reservedOpcode

/-- A word with the opcode bits `op`, and `IDX` and `IMM` in their fields: `op | (idx << 8) | imm` (R90). -/
def commandWord (op : Word) (idx imm : Byte) : Word := op ||| (idx.setWidth 32 <<< 8) ||| imm.setWidth 32

/-- The word of a command, written from the forms of R90. -/
def encode : Instr → Word
  | .wkey idx imm => commandWord 0x10000000 idx imm
  | .wnonce idx imm => commandWord 0x20000000 idx imm
  | .wrounds imm => commandWord 0x30000000 0 imm
  | .initk => 0x40000000#32
  | .inite => 0x50000000#32
  | .nextb => 0x60000000#32
  | .rdstat => 0x70000000#32
  | .rdctr => 0x80000000#32
  | .zero => 0x90000000#32

/-- The command word that a table word of `nbits` bits stands for. A command word is one 32-bit integer (R53, R70),
so the table's bit `b` is the word's bit `b`, and bits the table does not give are 0 (log 11). -/
def tableWord (nbits w : Nat) : Word := BitVec.ofNat 32 (w % 2 ^ nbits)

/-- The command this decoder reads from a table word; `none` where it refuses. -/
def decodeTableWord (nbits w : Nat) : Option Instr :=
  match decode (tableWord nbits w) with
  | .ok i => some i
  | .error _ => none

/-- One row of the constraint table of R73: the fixed bits `pattern` under `mask`, and the largest `IDX`. -/
structure EncodingRow where
  /-- The fixed bits. -/
  pattern : Word
  /-- Which bits are fixed. -/
  mask : Word
  /-- The largest legal index; 0 where the command takes none. -/
  lastIdx : Nat
deriving DecidableEq, Repr

/-- The table of R73, one row per mnemonic. -/
def encodingRow : Instr → EncodingRow
  | .wkey _ _ => ⟨0x10000000, 0xFFFFE000, 31⟩
  | .wnonce _ _ => ⟨0x20000000, 0xFFFFF000, 11⟩
  | .wrounds _ => ⟨0x30000000, 0xFFFFFF00, 0⟩
  | .initk => ⟨0x40000000, 0xFFFFFFFF, 0⟩
  | .inite => ⟨0x50000000, 0xFFFFFFFF, 0⟩
  | .nextb => ⟨0x60000000, 0xFFFFFFFF, 0⟩
  | .rdstat => ⟨0x70000000, 0xFFFFFFFF, 0⟩
  | .rdctr => ⟨0x80000000, 0xFFFFFFFF, 0⟩
  | .zero => ⟨0x90000000, 0xFFFFFFFF, 0⟩

/-- The word has the row's fixed bits and a legal index (R73). -/
def EncodingRow.holds (r : EncodingRow) (cmd : Word) : Bool :=
  decide (cmd &&& r.mask = r.pattern) && decide ((idxField cmd).toNat ≤ r.lastIdx)

end Sys2Proof
end

