-- ==== Sys2Proof/Config.lean ====
section
/-! DEFINITION. What is fixed per instance at design time and left open by the spec (00_scope.md R5). -/

namespace Sys2Proof

/-- The counter overflow policy `CTR_OVF` (00_scope.md R5, 43_keystream_cursor.md R152, R153). -/
inductive CtrOvf where
  /-- The counter wraps silently and `NEXTB` goes on (R153). -/
  | wrap
  /-- The refill after a wrap is refused (R152). -/
  | halt
deriving DecidableEq, Repr, Inhabited

/-- The policy of the instance that `State.reset` describes. OPEN in R5: no body, so nothing proved from reset can
rest on either value (log 1). Statements over all states quantify over the field `State.ctrOvf` instead. -/
opaque Config.ctrOvf : CtrOvf

end Sys2Proof
end

