-- ==== Sys2Proof/Machine/State.lean ====
section
/-! DEFINITION. The state of one generator instance (10_state.md R20), its ports (00_scope.md §4) and the outside
events still to come; the machine right after reset (R39). -/

namespace Sys2Proof.Machine

/-- Whether an `INITE` waits for its entropy answer (10_state.md R30). -/
inductive Pending where
  /-- No `INITE` waits: the command port is ready. -/
  | idle
  /-- An `INITE` is outstanding: the command port accepts nothing. -/
  | waitEntropy
deriving DecidableEq, Repr

/-- A response as the port carries it: a 4-bit status code and a 32-bit data word (00_scope.md R8, 30_encoding.md R84). -/
structure Response where
  /-- The status code of 60_exceptions.md R210. -/
  code : BitVec 4
  /-- The data word. -/
  data : Word
deriving DecidableEq, Repr

/-- An entropy request as the port carries it: how many bytes it asks for (00_scope.md R9). -/
structure EntropyRequest where
  /-- The number of bytes; the core asks for 44. -/
  size : Nat
deriving DecidableEq, Repr

/-- What the collaborator may answer (00_scope.md R9). -/
inductive EntropyAnswer where
  /-- `EntropyOk(e)`: exactly 44 bytes, a free draw. -/
  | ok (e : Vector Byte 44)
  /-- Fewer than 44 bytes. It counts as a failure and the bytes are discarded (R9, R186), so only their number is kept. -/
  | short (count : Fin 44)
  /-- `EntropyFail`. -/
  | fail
deriving DecidableEq, Repr

/-- What an outside agent may do between two transitions of the core (00_scope.md R6). -/
inductive Event where
  /-- The host presents a command word (R7). -/
  | present (w : Word)
  /-- The entropy collaborator answers a request (R9). `request` says which: the first request ever raised is number 1
  (log 7). -/
  | answer (request : Nat) (a : EntropyAnswer)
  /-- The reset input is asserted (R10). -/
  | reset
  /-- Reset is asserted at the moment an entropy answer arrives (60_exceptions.md R218). -/
  | resetAndAnswer (a : EntropyAnswer)
deriving DecidableEq, Repr

/-- The machine state. The first twelve fields are the record of R20. -/
structure State where
  /-- The staging key. -/
  skey : Vector Byte 32
  /-- The staging nonce. -/
  snonce : Vector Byte 12
  /-- The staging round count; any byte (R22). -/
  srounds : Byte
  /-- A generator exists (R23). -/
  constructed : Bool
  /-- The generator's key (R24). -/
  key : Vector Byte 32
  /-- The generator's nonce (R24). -/
  nonce : Vector Byte 12
  /-- The generator's round count R (R25). -/
  rounds : Byte
  /-- The counter of the next block (R26). -/
  counter : Word
  /-- The keystream buffer (R27). -/
  buf : Vector Byte 64
  /-- How many bytes of `buf` have been served: an integer 0..64 (R28, log 8). -/
  cursor : Fin 65
  /-- Sticky: the counter has wrapped since construction (R29). -/
  wrapped : Bool
  /-- Whether an `INITE` waits for entropy (R30). -/
  pending : Pending
  /-- The design-time parameter `CTR_OVF` of this instance (00_scope.md R5). No step changes it. -/
  ctrOvf : CtrOvf
  /-- Command words presented and not yet accepted, oldest first (00_scope.md R7). -/
  port : List Word
  /-- The model's own field: what the outside agents do next, oldest first. A free input (log 2). -/
  events : List Event
  /-- Responses delivered, oldest first (00_scope.md R8). No command reads them (10_state.md R35). -/
  responses : List Response
  /-- Entropy requests raised, oldest first (00_scope.md R9). Only their number is read, to tell the waiting `INITE`'s
  request from the abandoned ones (log 7). -/
  requests : List EntropyRequest
deriving DecidableEq, Repr

/-- A reason for the machine to stop. There is none: every accepted word ends in a response or in the architected
`INITE` wait, and error responses "are architected outcomes, not model faults" (00_scope.md R15). Safe (log 10). -/
inductive Fault where
deriving DecidableEq, Repr

/-- A reason to give an instruction no meaning. -/
inductive Refusal where
  /-- Raised only by an arm of `exec` whose instruction has no meaning yet; safe. No arm of this model raises it. -/
  | notModelled (mnemonic : String)
deriving DecidableEq, Repr

/-- The state right after reset (10_state.md R39, 70_reset_and_hazards.md R240), with empty ports and no outside event
to come (log 5) and the instance's open overflow policy (log 1). -/
def State.reset : State where
  skey := Vector.replicate 32 0
  snonce := Vector.replicate 12 0
  srounds := 20
  constructed := false
  key := Vector.replicate 32 0
  nonce := Vector.replicate 12 0
  rounds := 0
  counter := 0
  buf := Vector.replicate 64 0
  cursor := 64
  wrapped := false
  pending := .idle
  ctrOvf := Config.ctrOvf
  port := []
  events := []
  responses := []
  requests := []

end Sys2Proof.Machine
end

