-- ==== Sys2Proof/Machine/Operands.lean ====
section
/-! DEFINITION. Word arithmetic and the byte-to-word views (00_scope.md R11 to R13), the index operands
(30_encoding.md R72, R73) and the two parts of an entropy answer (44_construction.md R185). -/

namespace Sys2Proof.Machine

/-- Left rotation of a 32-bit word, used for `0 < n < 32` (00_scope.md R12). PRESUMED: the spec marks the formula as
general knowledge (log 9). -/
def rotl (x : Word) (n : Nat) : Word := (x <<< n) ||| (x >>> (32 - n))

/-- `zext_32` of a byte (00_scope.md R11). -/
def zext32 (b : Byte) : Word := b.setWidth 32

/-- Four bytes in increasing index order as one little-endian word (00_scope.md R13). -/
def le32 (b0 b1 b2 b3 : Byte) : Word :=
  zext32 b0 ||| (zext32 b1 <<< 8) ||| (zext32 b2 <<< 16) ||| (zext32 b3 <<< 24)

/-- Byte `j` of a word, `w[8j+7:8j]` (00_scope.md R13, 42_block_finalizer.md R142). -/
def byteOf (w : Word) (j : Nat) : Byte := w.extractLsb' (8 * j) 8

/-- The four bytes of a word, least significant first (00_scope.md R13). -/
def leBytes (w : Word) : Vector Byte 4 := #v[byteOf w 0, byteOf w 1, byteOf w 2, byteOf w 3]

/-- The key byte index of `WKEY`, where it is one: 0..31 (30_encoding.md R73). -/
def keyIndex (idx : Byte) : Option (Fin 32) :=
  if h : idx.toNat < 32 then some ⟨idx.toNat, h⟩ else none

/-- The nonce byte index of `WNONCE`, where it is one: 0..11 (30_encoding.md R73). -/
def nonceIndex (idx : Byte) : Option (Fin 12) :=
  if h : idx.toNat < 12 then some ⟨idx.toNat, h⟩ else none

/-- `e[0..31]`, the key part of an entropy answer (44_construction.md R185). -/
def entropyKey (e : Vector Byte 44) : Vector Byte 32 :=
  Vector.ofFn fun i => e[i.val]

/-- `e[32..43]`, the nonce part of an entropy answer (44_construction.md R185). -/
def entropyNonce (e : Vector Byte 44) : Vector Byte 12 :=
  Vector.ofFn fun i => e[32 + i.val]

/-- The size of the one entropy request (00_scope.md R5, R9). -/
def entropyRequestSize : Nat := 44

/-- The counter at every construction (00_scope.md R5, 10_state.md R26). -/
def startingCounter : Word := 1

end Sys2Proof.Machine
end

