-- ==== Sys2Proof/Machine/Flags.lean ====
section
/-! DEFINITION. The status codes (60_exceptions.md R210), the status word (45_status.md R200), the round-count check
(44_construction.md R176) and the rule of the `wrapped` bit (43_keystream_cursor.md R151). -/

namespace Sys2Proof.Machine

/-- The status codes that the core produces (60_exceptions.md R210). -/
inductive StatusCode where
  /-- Success. -/
  | ok
  /-- The word decodes to `Illegal` (R212). -/
  | illegalCommand
  /-- `srounds` is zero or odd at a construction (R213). -/
  | configError
  /-- The collaborator failed or answered fewer than 44 bytes (R214). -/
  | entropyError
  /-- `NEXTB` with no generator (R215). -/
  | notConstructed
  /-- `NEXTB` with a refill due after the counter wrapped, under `HALT` (R216). -/
  | counterExhausted
deriving DecidableEq, Repr

/-- The 4-bit code of R210. -/
def StatusCode.bits : StatusCode → BitVec 4
  | .ok => 0x0
  | .illegalCommand => 0x1
  | .configError => 0x2
  | .entropyError => 0x3
  | .notConstructed => 0x4
  | .counterExhausted => 0x5

/-- `legal_rounds` of 44_construction.md R176: nonzero and even, so 2, 4, ..., 254. -/
def legalRounds (r : Byte) : Bool := decide (r ≠ 0) && decide (r.toNat % 2 = 0)

/-- The `wrapped` bit after a refill at counter `ctr` (43_keystream_cursor.md R151): sticky, and set when the counter
moves from `0xFFFFFFFF` to 0. -/
def wrappedAfter (wrapped : Bool) (ctr : Word) : Bool := wrapped || decide (ctr = 0xFFFFFFFF)

/-- The `OVF_HALT` bit (45_status.md R200). -/
def ovfHalt : CtrOvf → Bool
  | .wrap => false
  | .halt => true

/-- One bit of the status word at bit 0. -/
def bit32 (b : Bool) : Word := (BitVec.ofBool b).setWidth 32

/-- The status word, as the formula of 45_status.md R200 builds it. -/
def State.statusWord (s : State) : Word :=
  (zext32 s.srounds <<< 24) ||| (zext32 s.rounds <<< 16) ||| (BitVec.ofNat 32 s.cursor.val <<< 8)
    ||| (bit32 (ovfHalt s.ctrOvf) <<< 2) ||| (bit32 s.wrapped <<< 1) ||| bit32 s.constructed

end Sys2Proof.Machine
end

