-- ==== Sys2Proof/Machine/Ops.lean ====
section
/-! DEFINITION. The operations the commands share: delivering a response, raising an error (the block's one form of
exception), the staging writes, beginning and ending a generator, the entropy request. -/

namespace Sys2Proof.Machine

/-- What one transition of the core answers. -/
abbrev Result := Host.Outcome State Fault Refusal

/-- `respond(code, data)`: deliver one response; with it the command ends (00_scope.md R8, R14). -/
def State.respond (s : State) (code : StatusCode) (data : Word) : State :=
  { s with responses := s.responses ++ [⟨code.bits, data⟩] }

/-- A command that ends with `OK` (30_encoding.md R84). -/
def succeed (data : Word) (s : State) : Result := .next (s.respond .ok data)

/-- `raise E`: answer `(E, 0)` and write no state (00_scope.md R14, 60_exceptions.md R211). An error is a response: it
saves nothing, changes no mode and redirects nothing (R219), and there is no return from it (R220). -/
def raise (code : StatusCode) (s : State) : Result := .next (s.respond code 0)

/-- Write one staging key byte (44_construction.md R170). -/
def State.writeSkey (s : State) (i : Fin 32) (b : Byte) : State := { s with skey := s.skey.set i b }

/-- Write one staging nonce byte (44_construction.md R172). -/
def State.writeSnonce (s : State) (i : Fin 12) (b : Byte) : State := { s with snonce := s.snonce.set i b }

/-- Write the staging round count (44_construction.md R174). -/
def State.writeSrounds (s : State) (r : Byte) : State := { s with srounds := r }

/-- Begin a generator lifetime with this key and nonce and the staged round count (44_construction.md R177, R185). -/
def State.construct (s : State) (key : Vector Byte 32) (nonce : Vector Byte 12) : State :=
  { s with
    key := key
    nonce := nonce
    rounds := s.srounds
    counter := startingCounter
    buf := Vector.replicate 64 0
    cursor := 64
    wrapped := false
    constructed := true }

/-- Every field of 10_state.md R20 at its reset value (R39); the parameter `CTR_OVF` and the ports stay
(44_construction.md R188, 70_reset_and_hazards.md R240, log 3). -/
def State.clear (s : State) : State :=
  { s with
    skey := Vector.replicate 32 0
    snonce := Vector.replicate 12 0
    srounds := 20
    constructed := false
    key := Vector.replicate 32 0
    nonce := Vector.replicate 12 0
    rounds := 0
    counter := 0
    buf := Vector.replicate 64 0
    cursor := 64
    wrapped := false
    pending := .idle }

/-- `request_entropy(44)` and the wait it begins (00_scope.md R9, 44_construction.md R183). -/
def State.requestEntropy (s : State) : State :=
  { s with pending := .waitEntropy, requests := s.requests ++ [⟨entropyRequestSize⟩] }

/-- An `INITE` waits for the answer to this request. The request of a waiting `INITE` is the one raised last (44_construction.md
R183); an earlier one has been answered or was abandoned by a reset (70_reset_and_hazards.md R241, log 7). -/
def State.awaits (s : State) (request : Nat) : Bool :=
  decide (s.pending = .waitEntropy) && decide (request = s.requests.length)

/-- The wait for entropy is over (44_construction.md R185, R186). -/
def State.endWait (s : State) : State := { s with pending := .idle }

/-- The core takes the oldest presented word off the command port (00_scope.md R7). -/
def State.takeCommand (s : State) : State := { s with port := s.port.tail }

/-- A presented word joins the words that wait at the command port (00_scope.md R7). -/
def State.presentCommand (s : State) (w : Word) : State := { s with port := s.port ++ [w] }

/-- The oldest outside event has happened. -/
def State.dropEvent (s : State) : State := { s with events := s.events.tail }

end Sys2Proof.Machine
end

