-- ==== Sys2Proof/Machine/Construction.lean ====
section
/-! DEFINITION. Staging writes, construction and destruction (44_construction.md R170 to R188). -/

namespace Sys2Proof.Machine

/-- `WKEY` (R170). An index past 31 is no legal command and answers `ILLEGAL_COMMAND`, as the decoder already does (log 12). -/
def execWkey (idx imm : Byte) (s : State) : Result :=
  match keyIndex idx with
  | some i => succeed 0 (s.writeSkey i imm)
  | none => raise .illegalCommand s

/-- `WNONCE` (R172). An index past 11 answers `ILLEGAL_COMMAND`, as the decoder already does (log 12). -/
def execWnonce (idx imm : Byte) (s : State) : Result :=
  match nonceIndex idx with
  | some i => succeed 0 (s.writeSnonce i imm)
  | none => raise .illegalCommand s

/-- `WROUNDS` (R174): every byte is stored; the check comes at construction. -/
def execWrounds (imm : Byte) (s : State) : Result := succeed 0 (s.writeSrounds imm)

/-- `INITK` (R176, R177). -/
def execInitk (s : State) : Result :=
  if legalRounds s.srounds = true then succeed 0 (s.construct s.skey s.snonce)
  else raise .configError s

/-- `INITE`, the issue step (R176, R183): it makes the request and stays outstanding, with no response yet. -/
def execInite (s : State) : Result :=
  if legalRounds s.srounds = true then .next s.requestEntropy
  else raise .configError s

/-- `ZERO` (R188). -/
def execZero (s : State) : Result := succeed 0 s.clear

/-- `INITE` completion with `EntropyOk(e)` (R185). -/
def State.completeEntropy (s : State) (e : Vector Byte 44) : State :=
  (s.construct (entropyKey e) (entropyNonce e)).endWait.respond .ok 0

/-- `INITE` completion with `EntropyFail` or too few bytes (R186). -/
def State.failEntropy (s : State) : State := s.endWait.respond .entropyError 0

/-- The collaborator's answer to a request reaches the core: it completes the `INITE` that waits for it (R185, R186). Any
other answer is discarded: with none waiting (60_exceptions.md R218), and when its request was abandoned by a reset, even
if a newer `INITE` waits (70_reset_and_hazards.md R241). -/
def State.receiveAnswer (s : State) (request : Nat) (a : EntropyAnswer) : State :=
  if s.awaits request = true then
    match a with
    | .ok e => s.completeEntropy e
    | .short _ => s.failEntropy
    | .fail => s.failEntropy
  else s

end Sys2Proof.Machine
end

