-- ==== Sys2Proof/Machine/StateInitializer.lean ====
section
/-! DEFINITION. The State Initializer (40_state_initializer.md R100 to R105): a pure function of key, nonce and
counter. -/

namespace Sys2Proof.Machine

/-- The 16-word array of the initial and the working state (10_state.md R34). -/
abbrev Words := Vector Word 16

/-- State word `4 + k`: key bytes `4k .. 4k+3`, little-endian (R102). -/
def keyWord (key : Vector Byte 32) (k : Fin 8) : Word :=
  le32 key[4 * k.val] key[4 * k.val + 1] key[4 * k.val + 2] key[4 * k.val + 3]

/-- State word `13 + k`: nonce bytes `4k .. 4k+3`, little-endian (R104). -/
def nonceWord (nonce : Vector Byte 12) (k : Fin 3) : Word :=
  le32 nonce[4 * k.val] nonce[4 * k.val + 1] nonce[4 * k.val + 2] nonce[4 * k.val + 3]

/-- `init_state` of R100: the four constants (R101), the key, the counter as it is (R103), the nonce. -/
def initState (key : Vector Byte 32) (nonce : Vector Byte 12) (ctr : Word) : Words :=
  #v[0x61707865, 0x3320646e, 0x79622d32, 0x6b206574,
     keyWord key 0, keyWord key 1, keyWord key 2, keyWord key 3,
     keyWord key 4, keyWord key 5, keyWord key 6, keyWord key 7,
     ctr, nonceWord nonce 0, nonceWord nonce 1, nonceWord nonce 2]

end Sys2Proof.Machine
end

