-- ==== Sys2Proof/Machine/PermutationEngine.lean ====
section
/-! DEFINITION. The Permutation Engine (41_permutation_engine.md R120 to R127): a pure function of the initial state
and the round count. -/

namespace Sys2Proof.Machine

/-- One line of `quarter_round` (R120): `w[x] += w[y]`, then `w[z] ^= w[x]`, then `w[z]` rotated left by `n`, each
assignment reading what the one before it wrote. -/
def mixLine (w : Words) (x y z : Fin 16) (n : Nat) : Words :=
  let w := w.set x (w[x] + w[y])
  let w := w.set z (w[z] ^^^ w[x])
  w.set z (rotl w[z] n)

/-- `quarter_round` of R120, with the rotation amounts 16, 12, 8, 7 of R121. -/
def quarterRound (w : Words) (a b c d : Fin 16) : Words :=
  let w := mixLine w a b d 16
  let w := mixLine w c d b 12
  let w := mixLine w a b d 8
  mixLine w c d b 7

/-- `column_round` of R123. -/
def columnRound (w : Words) : Words :=
  let w := quarterRound w 0 4 8 12
  let w := quarterRound w 1 5 9 13
  let w := quarterRound w 2 6 10 14
  quarterRound w 3 7 11 15

/-- `diagonal_round` of R124. -/
def diagonalRound (w : Words) : Words :=
  let w := quarterRound w 0 5 10 15
  let w := quarterRound w 1 6 11 12
  let w := quarterRound w 2 7 8 13
  quarterRound w 3 4 9 14

/-- `double_round` of R125: one column round, then one diagonal round. -/
def doubleRound (w : Words) : Words := diagonalRound (columnRound w)

/-- `n` double rounds, applied in sequence (R126). -/
def doubleRounds : Nat → Words → Words
  | 0, w => w
  | n + 1, w => doubleRounds n (doubleRound w)

/-- `permute(s0, R)` of R126: R/2 double rounds on a copy of the initial state. -/
def permute (s0 : Words) (r : Byte) : Words := doubleRounds (r.toNat / 2) s0

end Sys2Proof.Machine
end

