-- ==== Sys2Proof/Machine/BlockFinalizer.lean ====
section
/-! DEFINITION. The Block Finalizer (42_block_finalizer.md R140 to R143): the last addition and the serialization to
64 bytes. -/

namespace Sys2Proof.Machine

/-- `out[i] = w[i] + s0[i]` mod 2^32, for each of the 16 words (R140, R141). -/
def addWords (w s0 : Words) : Words := Vector.ofFn fun i => w[i] + s0[i]

/-- The 16 words as 64 bytes: byte `4i + j` is byte `j` of word `i` (R142). -/
def serialize (out : Words) : Vector Byte 64 :=
  Vector.ofFn fun n => byteOf out[n.val / 4] (n.val % 4)

/-- `finalize(w, s0)` of R140. -/
def finalize (w s0 : Words) : Vector Byte 64 := serialize (addWords w s0)

/-- `chacha_block(key, nonce, ctr, R)` of R143. -/
def chachaBlock (key : Vector Byte 32) (nonce : Vector Byte 12) (ctr : Word) (r : Byte) : Vector Byte 64 :=
  finalize (permute (initState key nonce ctr) r) (initState key nonce ctr)

end Sys2Proof.Machine
end

