-- ==== Sys2Proof/Machine/Cursor.lean ====
section
/-! DEFINITION. The Keystream Cursor: refill and `NEXTB` (43_keystream_cursor.md R150 to R153). -/

namespace Sys2Proof.Machine

/-- `refill()` of R151: store the block of the current counter, record a wrap, advance the counter, rewind the cursor. -/
def State.refill (s : State) : State :=
  { s with
    buf := chachaBlock s.key s.nonce s.counter s.rounds
    wrapped := wrappedAfter s.wrapped s.counter
    counter := s.counter + 1
    cursor := 0 }

/-- The cursor moves past byte `i` (R150). -/
def State.advance (s : State) (i : Fin 64) : State := { s with cursor := i.succ }

/-- The end of `NEXTB` (R150): answer byte `i` of the buffer and move the cursor past it. -/
def serveByte (i : Fin 64) (s : State) : Result := succeed (zext32 s.buf[i]) (s.advance i)

/-- `NEXTB` (R150). With the cursor below 64 it serves the byte there; at 64 it refills first, unless the counter has
wrapped under `HALT` (R152). -/
def execNextb (s : State) : Result :=
  if s.constructed = false then raise .notConstructed s
  else if h : s.cursor.val < 64 then serveByte ⟨s.cursor.val, h⟩ s
  else if s.wrapped = true ∧ s.ctrOvf = .halt then raise .counterExhausted s
  else serveByte 0 s.refill

end Sys2Proof.Machine
end

