-- ==== Sys2Proof/Machine/StatusReads.lean ====
section
/-! DEFINITION. The two observation commands (45_status.md R200 to R202). -/

namespace Sys2Proof.Machine

/-- `RDSTAT` (R201). -/
def execRdstat (s : State) : Result := succeed s.statusWord s

/-- `RDCTR` (R202). -/
def execRdctr (s : State) : Result := succeed s.counter s

end Sys2Proof.Machine
end

