-- ==== Sys2Proof/Machine/Dispatch.lean ====
section
/-! DEFINITION. One arm per command: the meaning it calls. -/

namespace Sys2Proof.Machine

def exec (i : Instr) (s : State) : Host.Outcome State Fault Refusal :=
  match i with
  | .wkey idx imm => Sys2Proof.Machine.execWkey idx imm s
  | .wnonce idx imm => Sys2Proof.Machine.execWnonce idx imm s
  | .wrounds imm => Sys2Proof.Machine.execWrounds imm s
  | .initk => Sys2Proof.Machine.execInitk s
  | .inite => Sys2Proof.Machine.execInite s
  | .nextb => Sys2Proof.Machine.execNextb s
  | .rdstat => Sys2Proof.Machine.execRdstat s
  | .rdctr => Sys2Proof.Machine.execRdctr s
  | .zero => Sys2Proof.Machine.execZero s

end Sys2Proof.Machine
end

