-- ==== Sys2Proof/Machine/Sequencer.lean ====
section
/-! DEFINITION. Who moves next (00_scope.md R6, R7) and what an accepted word or an outside event does. -/

namespace Sys2Proof.Machine

/-- The next transition of the instance. -/
inductive Move where
  /-- The core accepts this word and executes it. -/
  | accept (w : Word)
  /-- An outside event reaches the core. -/
  | arrive (e : Event)
  /-- Nothing can move: the core waits for an outside agent. -/
  | wait
deriving DecidableEq, Repr

/-- The outside agents' next move, if there is one. -/
def outsideMove : List Event → Move
  | [] => .wait
  | e :: _ => .arrive e

/-- A ready port accepts its oldest word; otherwise the next outside event happens (log 2). The port is ready exactly
when no `INITE` waits (00_scope.md R7, 44_construction.md R184). -/
def State.nextMove (s : State) : Move :=
  match s.pending, s.port with
  | .idle, w :: _ => .accept w
  | .idle, [] => outsideMove s.events
  | .waitEntropy, _ => outsideMove s.events

/-- Execute an accepted word: a legal one as its command, any other as `ILLEGAL_COMMAND` (30_encoding.md R80,
60_exceptions.md R212). -/
def acceptCommand (w : Word) (s : State) : Result :=
  match decode w with
  | .ok i => exec i s
  | .error _ => raise .illegalCommand s

/-- What an outside event does. Reset sets the reset values and wins over an answer that comes with it
(70_reset_and_hazards.md R240, R241, 60_exceptions.md R218). -/
def State.arrive (s : State) : Event → State
  | .present w => s.presentCommand w
  | .answer n a => s.receiveAnswer n a
  | .reset => s.clear
  | .resetAndAnswer _ => s.clear

/-- One transition. With nothing to do the instance stays as it is, for as long as no outside agent moves: this is the
unbounded wait of 44_construction.md R184 and 70_reset_and_hazards.md R252 (log 2). -/
def transition (s : State) : Result :=
  match s.nextMove with
  | .accept w => acceptCommand w s.takeCommand
  | .arrive e => .next (s.dropEvent.arrive e)
  | .wait => .next s

end Sys2Proof.Machine
end

