-- ==== Sys2Proof/Machine/Step.lean ====
section
/-! DEFINITION. The step of the machine, and how the host presents the word that the next step runs. -/

namespace Sys2Proof.Machine

/-- One step: one transition of the instance. -/
def step (s : State) : Host.Outcome State Fault Refusal := transition s

/-- The word of a table row presented at the head of a ready command port, so that the very next step accepts and runs
it. A port that waits for entropy accepts nothing (44_construction.md R184), so the port is made ready too (log 5). -/
def State.withFetchWord (s : State) (nbits w : Nat) : State :=
  { s with pending := .idle, port := tableWord nbits w :: s.port }

end Sys2Proof.Machine
end

