-- ==== Sys2Proof/Machine/Assembler.lean ====
section
/-! DEFINITION. The assembler of the host's side: its syntax (30_encoding.md R90) and its pseudo-instructions (R91).
No step of the core uses it. -/

namespace Sys2Proof.Machine

/-- What the first word of a line may be: the mnemonics and `.word` of R90, the pseudo-instructions of R91. -/
inductive AsmOp where
  | wkey | wnonce | wrounds | initk | inite | nextb | rdstat | rdctr | zero
  | word
  | setkey | setnonce | fromkey | fromentropy | fill | block
deriving DecidableEq, Repr

/-- Why the assembler rejects a line. -/
inductive AsmError where
  /-- The first word of the line is none of R90 or R91. -/
  | unknownMnemonic
  /-- An operand is no decimal and no `0x` number. -/
  | badNumber
  /-- The line has too few or too many operands. -/
  | operandCount
  /-- An operand is outside its range; it is never wrapped into the field (R90). -/
  | operandRange
  /-- `wrounds` with an odd count or 0: such a construction can only fail (R90). -/
  | illegalRounds
deriving DecidableEq, Repr

/-- The spelling of each operation, in lower case (R90, R91). -/
def asmNames : List (String × AsmOp) :=
  [("wkey", .wkey), ("wnonce", .wnonce), ("wrounds", .wrounds), ("initk", .initk), ("inite", .inite),
   ("nextb", .nextb), ("rdstat", .rdstat), ("rdctr", .rdctr), ("zero", .zero), (".word", .word),
   ("setkey", .setkey), ("setnonce", .setnonce), ("fromkey", .fromkey), ("fromentropy", .fromentropy),
   ("fill", .fill), ("block", .block)]

/-- A byte operand. -/
def asmByte (n : Nat) : Except AsmError Byte :=
  if n ≤ 255 then .ok (BitVec.ofNat 8 n) else .error .operandRange

/-- `wkey idx, byte` (R90). -/
def asmWkey (idx byte : Nat) : Except AsmError Word :=
  if idx ≤ 31 then (asmByte byte).map fun b => encode (.wkey (BitVec.ofNat 8 idx) b) else .error .operandRange

/-- `wnonce idx, byte` (R90). -/
def asmWnonce (idx byte : Nat) : Except AsmError Word :=
  if idx ≤ 11 then (asmByte byte).map fun b => encode (.wnonce (BitVec.ofNat 8 idx) b) else .error .operandRange

/-- `wrounds r` (R90): a count that can only fail at construction is rejected. -/
def asmWrounds (r : Nat) : Except AsmError Word :=
  if 255 < r then .error .operandRange
  else if r = 0 ∨ r % 2 = 1 then .error .illegalRounds
  else .ok (encode (.wrounds (BitVec.ofNat 8 r)))

/-- `.word value`: any 32-bit word, reserved ones included (R90). -/
def asmWord (v : Nat) : Except AsmError Word :=
  if v < 2 ^ 32 then .ok (BitVec.ofNat 32 v) else .error .operandRange

/-- One command for each byte, at the indices `i`, `i + 1`, ... -/
def asmEach (one : Nat → Nat → Except AsmError Word) : Nat → List Nat → Except AsmError (List Word)
  | _, [] => .ok []
  | i, b :: bs => do
    let w ← one i b
    let ws ← asmEach one (i + 1) bs
    return w :: ws

/-- `setkey k0, ..., k31` (R91). -/
def asmSetkey (ks : List Nat) : Except AsmError (List Word) :=
  if ks.length = 32 then asmEach asmWkey 0 ks else .error .operandCount

/-- `setnonce n0, ..., n11` (R91). -/
def asmSetnonce (ns : List Nat) : Except AsmError (List Word) :=
  if ns.length = 12 then asmEach asmWnonce 0 ns else .error .operandCount

/-- `fromkey K, N, r` (R91): the 32 key bytes, the 12 nonce bytes and the round count. -/
def asmFromkey (key nonce : List Nat) (r : Nat) : Except AsmError (List Word) := do
  let ks ← asmSetkey key
  let ns ← asmSetnonce nonce
  let w ← asmWrounds r
  return ks ++ ns ++ [w, encode .initk]

/-- The words of one operation with its operands (R90, R91). The operands of `fromkey` are its 32 key bytes, its 12
nonce bytes and the round count, in that order (log 13). -/
def assemble : AsmOp → List Nat → Except AsmError (List Word)
  | .wkey, [idx, b] => (asmWkey idx b).map fun w => [w]
  | .wnonce, [idx, b] => (asmWnonce idx b).map fun w => [w]
  | .wrounds, [r] => (asmWrounds r).map fun w => [w]
  | .initk, [] => .ok [encode .initk]
  | .inite, [] => .ok [encode .inite]
  | .nextb, [] => .ok [encode .nextb]
  | .rdstat, [] => .ok [encode .rdstat]
  | .rdctr, [] => .ok [encode .rdctr]
  | .zero, [] => .ok [encode .zero]
  | .word, [v] => (asmWord v).map fun w => [w]
  | .setkey, ks => asmSetkey ks
  | .setnonce, ns => asmSetnonce ns
  | .fromkey, ops =>
    match ops.drop 44 with
    | [r] => asmFromkey (ops.take 32) ((ops.drop 32).take 12) r
    | _ => .error .operandCount
  | .fromentropy, [r] => (asmWrounds r).map fun w => [w, encode .inite]
  | .fill, [n] => .ok (List.replicate n (encode .nextb))
  | .block, [] => .ok (List.replicate 64 (encode .nextb))
  | _, _ => .error .operandCount

/-- A blank between the parts of a line (log 13). -/
def isBlank (c : Char) : Bool := c == ' ' || c == '\t'

/-- The text without the blanks at its two ends. -/
def trimBlanks (cs : List Char) : List Char := ((cs.dropWhile isBlank).reverse.dropWhile isBlank).reverse

/-- The parts of a text between its commas. -/
def splitCommas : List Char → List (List Char)
  | [] => [[]]
  | c :: cs =>
    if c = ',' then [] :: splitCommas cs
    else
      match splitCommas cs with
      | [] => [[c]]
      | p :: ps => (c :: p) :: ps

/-- The value of a digit, of either case (log 13). -/
def digitValue (c : Char) : Option Nat :=
  if '0' ≤ c ∧ c ≤ '9' then some (c.toNat - '0'.toNat)
  else if 'a' ≤ c ∧ c ≤ 'f' then some (c.toNat - 'a'.toNat + 10)
  else if 'A' ≤ c ∧ c ≤ 'F' then some (c.toNat - 'A'.toNat + 10)
  else none

/-- The digits of a number in a base, most significant first, added to what stands before them. -/
def digitsValue (base : Nat) : Nat → List Char → Except AsmError Nat
  | acc, [] => .ok acc
  | acc, c :: cs =>
    match digitValue c with
    | some d => if d < base then digitsValue base (acc * base + d) cs else .error .badNumber
    | none => .error .badNumber

/-- A number: decimal or `0x`-prefixed hex (R90). -/
def parseNumber : List Char → Except AsmError Nat
  | [] => .error .badNumber
  | ['0', 'x'] => .error .badNumber
  | '0' :: 'x' :: ds => digitsValue 16 0 ds
  | ds => digitsValue 10 0 ds

/-- The operands of a line: numbers separated by commas (R90). -/
def parseOperands (cs : List Char) : Except AsmError (List Nat) :=
  if trimBlanks cs = [] then .ok [] else (splitCommas cs).mapM fun p => parseNumber (trimBlanks p)

/-- One line of R90: the mnemonic, then its operands; `;` starts a comment; a line with nothing else gives no word. -/
def assembleLine (line : List Char) : Except AsmError (List Word) :=
  let text := trimBlanks (line.takeWhile fun c => c ≠ ';')
  if text = [] then .ok []
  else
    match asmNames.lookup (String.ofList (text.takeWhile fun c => !isBlank c)) with
    | none => .error .unknownMnemonic
    | some op => do
      let operands ← parseOperands (text.dropWhile fun c => !isBlank c)
      assemble op operands

/-- A whole text, one line after the other (R90, R91). -/
def assembleText (lines : List (List Char)) : Except AsmError (List Word) :=
  (lines.mapM assembleLine).map List.flatten

end Sys2Proof.Machine
end

