-- ==== Sys2Proof/Safety.lean ====
section
/-! DEFINITION. The terms that statements use: equal parts of two states, runs and reachable states, the invariants of
10_state.md R31, and the keystream of 43_keystream_cursor.md R155. -/

namespace Sys2Proof.Machine

/-- The generator fields of 10_state.md R20 are the same in both states. -/
structure SameGenerator (s t : State) : Prop where
  constructed : t.constructed = s.constructed
  key : t.key = s.key
  nonce : t.nonce = s.nonce
  rounds : t.rounds = s.rounds
  counter : t.counter = s.counter
  buf : t.buf = s.buf
  cursor : t.cursor = s.cursor
  wrapped : t.wrapped = s.wrapped

/-- All twelve fields of 10_state.md R20 are the same in both states. -/
structure SameRecord (s t : State) : Prop extends SameGenerator s t where
  skey : t.skey = s.skey
  snonce : t.snonce = s.snonce
  srounds : t.srounds = s.srounds
  pending : t.pending = s.pending

/-- The parameter and the ports are the same in both states, but for the responses. -/
structure SamePorts (s t : State) : Prop where
  ctrOvf : t.ctrOvf = s.ctrOvf
  port : t.port = s.port
  events : t.events = s.events
  requests : t.requests = s.requests

/-- `n` steps lead from the first state to the second. -/
def Steps : Nat → State → State → Prop
  | 0, s, t => s = t
  | n + 1, s, t => ∃ u, step s = .next u ∧ Steps n u t

/-- An instance of either policy at power-up, with any outside events to come. -/
def powerUp (p : CtrOvf) (es : List Event) : State := { State.reset with ctrOvf := p, events := es }

/-- A state that some run of the machine reaches from power-up. -/
def Reachable (s : State) : Prop := ∃ p es n, Steps n (powerUp p es) s

/-- The invariants of 10_state.md R31, in its order. -/
structure State.Sound (s : State) : Prop where
  cursor_bound : s.cursor.val ≤ 64
  no_generator : s.constructed = false →
    s.key = Vector.replicate 32 0 ∧ s.nonce = Vector.replicate 12 0 ∧ s.buf = Vector.replicate 64 0 ∧
      s.rounds = 0 ∧ s.counter = 0 ∧ s.cursor = 64 ∧ s.wrapped = false
  legal_rounds : s.constructed = true → s.rounds.toNat % 2 = 0 ∧ 2 ≤ s.rounds.toNat ∧ s.rounds.toNat ≤ 254
  wrapped_needs_generator : s.wrapped = true → s.constructed = true
  buffer_is_block : s.constructed = true → s.cursor.val < 64 →
    s.buf = chachaBlock s.key s.nonce (s.counter - 1) s.rounds

/-- What makes R31 hold step by step: also, an `INITE` that waits has passed its round-count check (44_construction.md
R183), and nothing writes `srounds` while it waits (R184). -/
structure State.Inv (s : State) : Prop extends State.Sound s where
  waiting_rounds : s.pending = .waitEntropy → s.srounds.toNat % 2 = 0 ∧ 2 ≤ s.srounds.toNat

/-- In every state the core executes the word `w` as the command `i`. -/
def Runs (w : Word) (i : Instr) : Prop := ∀ s : State, acceptCommand w s = exec i s

/-- In every state the core answers the word `w` with `ILLEGAL_COMMAND` and changes nothing else
(60_exceptions.md R211, R212). -/
def AnsweredIllegal (w : Word) : Prop :=
  ∀ s : State, acceptCommand w s = .next { s with responses := s.responses ++ [⟨0x1, 0⟩] }

/-- The next transition accepts a word that decodes to `i`. -/
def State.accepts (s : State) (i : Instr) : Prop := ∃ w, s.nextMove = .accept w ∧ decode w = .ok i

/-- The next transition is a successful construction (44_construction.md R177, R185). -/
def State.constructs (s : State) : Prop :=
  (s.accepts .initk ∧ legalRounds s.srounds = true) ∨
  (∃ n e, s.nextMove = .arrive (.answer n (.ok e)) ∧ s.awaits n = true)

/-- The next transition is a `ZERO` or a reset (44_construction.md R188, 70_reset_and_hazards.md R240). -/
def State.destroys (s : State) : Prop :=
  s.accepts .zero ∨ s.nextMove = .arrive .reset ∨ ∃ a, s.nextMove = .arrive (.resetAndAnswer a)

/-- A safe run: no step stops, and every state on the way meets R31. -/
def SafeFor : Nat → State → Prop
  | 0, s => s.Sound
  | n + 1, s => s.Sound ∧ ∃ t, step s = .next t ∧ SafeFor n t

/-- The next transition begins or ends a generator lifetime: a successful construction, `ZERO` or reset
(10_state.md R24, R29). -/
def State.endsLifetime (s : State) : Bool :=
  match s.nextMove with
  | .accept w =>
    match decode w with
    | .ok .zero => true
    | .ok .initk => legalRounds s.srounds
    | _ => false
  | .arrive (.present _) => false
  | .arrive (.answer n (.ok _)) => s.awaits n
  | .arrive (.answer _ (.short _)) => false
  | .arrive (.answer _ .fail) => false
  | .arrive .reset => true
  | .arrive (.resetAndAnswer _) => true
  | .wait => false

/-- No transition of the first `n` steps begins or ends a generator lifetime. -/
def Undisturbed : Nat → State → Prop
  | 0, _ => True
  | n + 1, s => s.endsLifetime = false ∧ ∀ t, step s = .next t → Undisturbed n t

/-- The byte that the step from `s` to `t` hands to the host: the step accepts `NEXTB` and answers `OK`. -/
def servedByte (s t : State) : Option Byte :=
  match s.nextMove, t.responses.getLast? with
  | .accept w, some r =>
    if decode w = .ok .nextb ∧ r.code = StatusCode.ok.bits then some (r.data.truncate 8) else none
  | _, _ => none

/-- The bytes that successful `NEXTB`s hand to the host in the first `n` steps, in order. -/
def bytesServed : Nat → State → List Byte
  | 0, _ => []
  | n + 1, s =>
    match step s with
    | .next t => (servedByte s t).toList ++ bytesServed n t
    | .fault _ => []
    | .refused _ => []

/-- How many refills the first `n` steps take: successful `NEXTB`s that find the cursor at 64
(43_keystream_cursor.md R151). -/
def refillsDone : Nat → State → Nat
  | 0, _ => 0
  | n + 1, s =>
    match step s with
    | .next t => (if s.cursor = 64 ∧ (servedByte s t).isSome then 1 else 0) + refillsDone n t
    | .fault _ => 0
    | .refused _ => 0

/-- A generator as a construction leaves it (44_construction.md R177, R185). -/
structure State.Fresh (s : State) : Prop where
  constructed : s.constructed = true
  counter : s.counter = 1
  cursor : s.cursor = 64
  wrapped : s.wrapped = false

/-- Byte `k` of the keystream of `(key, nonce, R)` (43_keystream_cursor.md R155). -/
def keystreamByte (key : Vector Byte 32) (nonce : Vector Byte 12) (r : Byte) (k : Nat) : Byte :=
  (chachaBlock key nonce (BitVec.ofNat 32 (1 + k / 64)) r)[k % 64]

end Sys2Proof.Machine
end

