-- ==== Sys2Proof/Certificates/Slice0/Obligations.lean ====
section
/-! DEFINITION. The statements for the provers. Each docstring names the rule it formalises. -/

open Sys2Proof Sys2Proof.Machine

/-! ### Encoding -/

/-- Words of every family decode to the command they stand for, and words with no meaning are illegal
(95_test_vectors.md §2.6). -/
def Obligations.WordsOfEveryFamilyDecode : Prop :=
  decode 0x10001f1f = .ok (.wkey 31 0x1f) ∧ decode 0x2000074a = .ok (.wnonce 7 0x4a) ∧
  decode 0x300000ff = .ok (.wrounds 255) ∧ decode 0x40000000 = .ok .initk ∧ decode 0x50000000 = .ok .inite ∧
  decode 0x60000000 = .ok .nextb ∧ decode 0x70000000 = .ok .rdstat ∧ decode 0x80000000 = .ok .rdctr ∧
  decode 0x90000000 = .ok .zero ∧ decode 0x10002000 = .error .indexOutOfRange ∧
  decode 0x20000c00 = .error .indexOutOfRange ∧ decode 0x60010000 = .error .reservedBits ∧
  decode 0x40000001 = .error .unusedOperand ∧ decode 0x00000000 = .error .reservedOpcode

/-- Decode of encode: no operand bit of a well-formed command is lost (30_encoding.md §6 against §3). -/
def Obligations.DecodeOfEncodeIsTheCommand : Prop :=
  ∀ i : Instr, i.wellFormed = true → decode (encode i) = .ok i

/-- Encode of decode: each legal word is the encoding of the one command it decodes to, and that command's operands are
in range. -/
def Obligations.LegalWordIsItsCommandsEncoding : Prop :=
  ∀ (w : Word) (i : Instr), decode w = .ok i → encode i = w ∧ i.wellFormed = true

/-- R73: a word is legal exactly when a row of the table holds, and it is then that row's command. -/
def Obligations.LegalWordsAreTheRowsOfTheTable : Prop :=
  ∀ w : Word,
    (∀ i, decode w = .ok i → (encodingRow i).holds w = true) ∧
    (∀ i, (encodingRow i).holds w = true → ∃ j, decode w = .ok j ∧ encodingRow j = encodingRow i)

/-- R81: the opcodes `0x0` and `0xA` to `0xF` decode to `Illegal` and are no no-op: the core answers
`ILLEGAL_COMMAND` and changes nothing else. -/
def Obligations.ReservedOpcodesAreIllegal : Prop :=
  ∀ (w : Word) (s : State), (opField w = 0x0 ∨ 0xA ≤ (opField w).toNat) →
    (∃ e, decode w = .error e) ∧
    acceptCommand w s = .next { s with responses := s.responses ++ [⟨0x1, 0⟩] }

/-- R82: a nonzero `RSV`, a nonzero `IDX` where the command takes no index and a nonzero `IMM` where it takes no byte
make the word illegal. -/
def Obligations.ReservedBitsAreNeverIgnored : Prop :=
  ∀ w : Word,
    (rsvField w ≠ 0 ∨ (3 ≤ (opField w).toNat ∧ idxField w ≠ 0) ∨ (4 ≤ (opField w).toNat ∧ immField w ≠ 0)) →
    ∃ e, decode w = .error e

/-! ### The step and the command port -/

/-- A step runs the decoded command: the word at the head of a ready port is taken off it and executed. That a ready port
goes before the next outside event is the model's choice (log 2). -/
def Obligations.StepRunsTheDecodedCommand : Prop :=
  ∀ (s : State) (w : Word) (rest : List Word) (i : Instr),
    s.pending = .idle → s.port = w :: rest → decode w = .ok i → step s = exec i { s with port := rest }

/-- Any word that decodes to `Illegal` answers `ILLEGAL_COMMAND` and records nothing (60_exceptions.md §1). That a ready
port goes before the next outside event is the model's choice (log 2). -/
def Obligations.IllegalWordAnswersIllegalCommand : Prop :=
  ∀ (s : State) (w : Word) (rest : List Word) (e : Illegal),
    s.pending = .idle → s.port = w :: rest → decode w = .error e →
    step s = .next { s with port := rest, responses := s.responses ++ [⟨0x1, 0⟩] }

/-- Every command, well-formed or not, and every step answers a next state, in every state: nothing stops the machine
(00_scope.md §5). -/
def Obligations.EveryStepAnswersANextState : Prop :=
  (∀ (i : Instr) (s : State), ∃ t, exec i s = .next t) ∧ (∀ s : State, ∃ t, step s = .next t)

/-- A word leaves the port only by being accepted, oldest first and only while no command is outstanding, and is
executed at once; it is then outstanding exactly if it has no response yet. A word presented joins the end. So no word is
lost or reordered (00_scope.md §4). That a ready port goes before the next outside event (log 2), and that the port
stays as it is on a reset (log 3), are the model's choices. -/
def Obligations.PortLosesAndReordersNoWord : Prop :=
  ∀ s t : State, step s = .next t →
    (∃ w, s.pending = .idle ∧ s.port = w :: t.port ∧ acceptCommand w { s with port := t.port } = .next t ∧
      (t.pending = .waitEntropy ↔ t.responses = s.responses)) ∨
    (∃ w es, s.events = .present w :: es ∧ t = { s with port := s.port ++ [w], events := es }) ∨
    (t.port = s.port ∧ ¬ (s.pending = .idle ∧ s.port ≠ []))

/-- While an `INITE` waits no command executes, and only the collaborator's answer or reset does more than let a
word join the port (44_construction.md §4). That the words of the port stay on a reset is the model's reading (log 3). -/
def Obligations.WaitingCoreAcceptsNoCommand : Prop :=
  ∀ s t : State, s.pending = .waitEntropy → step s = .next t →
    s.port <+: t.port ∧
    ((∃ e es, s.events = e :: es ∧ ∀ w, e ≠ .present w) ∨
      t = { s with port := t.port, events := s.events.tail })

/-- R252: with no answer and no reset to come, an `INITE` waits for ever: after any number of steps it still waits, no
response has been delivered and every presented word is still in the port. -/
def Obligations.UnansweredInitWaitsForEver : Prop :=
  ∀ s : State, s.pending = .waitEntropy → (∀ e ∈ s.events, ∃ w, e = .present w) →
    ∀ n, ∃ t, Steps n s t ∧ t.pending = .waitEntropy ∧ SameRecord s t ∧ t.responses = s.responses ∧ s.port <+: t.port

/-- An accepted word gets exactly one response, at once; only an `INITE` that goes waiting gets none yet
(00_scope.md §4). -/
def Obligations.AcceptedWordIsAnsweredOnce : Prop :=
  ∀ (w : Word) (s t : State), acceptCommand w s = .next t →
    (∃ r, t.responses = s.responses ++ [r]) ∨
    (decode w = .ok .inite ∧ t.pending = .waitEntropy ∧ t.responses = s.responses)

/-- No step delivers a reserved code (6 to 15), and data is 0 with every code but `OK` (60_exceptions.md §1). -/
def Obligations.ResponsesCarryArchitectedCodes : Prop :=
  ∀ s t : State, step s = .next t →
    t.responses = s.responses ∨
    ∃ r, t.responses = s.responses ++ [r] ∧ r.code.toNat ≤ 5 ∧ (r.code ≠ 0 → r.data = 0)

/-- R211: a word whose response is an error changes nothing but the response port, and its data is 0; an `INITE` that
ends with an error leaves every field as it was when the wait began, and its data is 0. -/
def Obligations.ErrorsWriteNoState : Prop :=
  (∀ (w : Word) (s t : State) (r : Response), acceptCommand w s = .next t → t.responses = s.responses ++ [r] →
    r.code ≠ 0 → t = { s with responses := s.responses ++ [⟨r.code, 0⟩] }) ∧
  (∀ (s t : State) (r : Response), s.pending = .waitEntropy → step s = .next t → t.responses = s.responses ++ [r] →
    r.code ≠ 0 → t = { s with
      pending := .idle, events := s.events.tail, responses := s.responses ++ [⟨r.code, 0⟩] })

/-! ### Staging writes -/

/-- R170: `WKEY` writes one staging key byte and nothing else; an index past 31 and a nonzero `RSV` are
`ILLEGAL_COMMAND`. -/
def Obligations.WkeyWritesOneStagingByte : Prop :=
  (∀ (idx imm : Byte) (s : State),
    (∀ h : idx.toNat < 32, exec (.wkey idx imm) s =
      .next { s with skey := s.skey.set idx.toNat imm, responses := s.responses ++ [⟨0x0, 0⟩] }) ∧
    (31 < idx.toNat → exec (.wkey idx imm) s = .next { s with responses := s.responses ++ [⟨0x1, 0⟩] })) ∧
  (∀ idx imm : Byte, idx.toNat < 32 →
    Runs (0x10000000 ||| (idx.setWidth 32 <<< 8) ||| imm.setWidth 32) (.wkey idx imm)) ∧
  (∀ w : Word, opField w = 0x1 → (rsvField w ≠ 0 ∨ 31 < (idxField w).toNat) → AnsweredIllegal w)

/-- R172: `WNONCE` writes one staging nonce byte and nothing else; an index past 11 and a nonzero `RSV` are
`ILLEGAL_COMMAND`. -/
def Obligations.WnonceWritesOneStagingByte : Prop :=
  (∀ (idx imm : Byte) (s : State),
    (∀ h : idx.toNat < 12, exec (.wnonce idx imm) s =
      .next { s with snonce := s.snonce.set idx.toNat imm, responses := s.responses ++ [⟨0x0, 0⟩] }) ∧
    (11 < idx.toNat → exec (.wnonce idx imm) s = .next { s with responses := s.responses ++ [⟨0x1, 0⟩] })) ∧
  (∀ idx imm : Byte, idx.toNat < 12 →
    Runs (0x20000000 ||| (idx.setWidth 32 <<< 8) ||| imm.setWidth 32) (.wnonce idx imm)) ∧
  (∀ w : Word, opField w = 0x2 → (rsvField w ≠ 0 ∨ 11 < (idxField w).toNat) → AnsweredIllegal w)

/-- R174: `WROUNDS` stores every byte, odd ones and 0 too, and writes nothing else; a nonzero `IDX` or `RSV` is
`ILLEGAL_COMMAND`. -/
def Obligations.WroundsStoresAnyByte : Prop :=
  (∀ (imm : Byte) (s : State), exec (.wrounds imm) s =
    .next { s with srounds := imm, responses := s.responses ++ [⟨0x0, 0⟩] }) ∧
  (∀ imm : Byte, Runs (0x30000000 ||| imm.setWidth 32) (.wrounds imm)) ∧
  (∀ w : Word, opField w = 0x3 → (rsvField w ≠ 0 ∨ idxField w ≠ 0) → AnsweredIllegal w)

/-- The frame of the staging writes (10_state.md §2): the generator, the wait, the parameter, the ports but for the one
response, and every staging byte but the one written stay as they were. -/
def Obligations.StagingWritesFrame : Prop :=
  ∀ (idx imm : Byte) (s t : State),
    (exec (.wkey idx imm) s = .next t →
      SameGenerator s t ∧ SamePorts s t ∧ t.pending = s.pending ∧ t.snonce = s.snonce ∧ t.srounds = s.srounds ∧
      ∀ (j : Nat) (hj : j < 32), j ≠ idx.toNat → t.skey[j] = s.skey[j]) ∧
    (exec (.wnonce idx imm) s = .next t →
      SameGenerator s t ∧ SamePorts s t ∧ t.pending = s.pending ∧ t.skey = s.skey ∧ t.srounds = s.srounds ∧
      ∀ (j : Nat) (hj : j < 12), j ≠ idx.toNat → t.snonce[j] = s.snonce[j]) ∧
    (exec (.wrounds imm) s = .next t →
      SameGenerator s t ∧ SamePorts s t ∧ t.pending = s.pending ∧ t.skey = s.skey ∧ t.snonce = s.snonce)

/-! ### Construction and destruction -/

/-- R176: with a zero or odd staged round count `INITK` and `INITE` answer `CONFIG_ERROR`, write no state and make no
entropy request. -/
def Obligations.ConstructionChecksTheRoundCountFirst : Prop :=
  ∀ s : State, (s.srounds = 0 ∨ s.srounds.toNat % 2 = 1) →
    exec .initk s = .next { s with responses := s.responses ++ [⟨0x2, 0⟩] } ∧
    exec .inite s = .next { s with responses := s.responses ++ [⟨0x2, 0⟩] }

/-- R177: `INITK` with a legal staged round count writes every generator field and no staging register; with another it
answers `CONFIG_ERROR`; its one word is `0x40000000`. -/
def Obligations.InitkConstructsFromStaging : Prop :=
  (∀ s : State, s.srounds ≠ 0 → s.srounds.toNat % 2 = 0 →
    exec .initk s = .next { s with
      key := s.skey, nonce := s.snonce, rounds := s.srounds, counter := 1, buf := Vector.replicate 64 0,
      cursor := 64, wrapped := false, constructed := true, responses := s.responses ++ [⟨0x0, 0⟩] }) ∧
  (∀ s : State, (s.srounds = 0 ∨ s.srounds.toNat % 2 = 1) →
    exec .initk s = .next { s with responses := s.responses ++ [⟨0x2, 0⟩] }) ∧
  Runs 0x40000000 .initk ∧ (∀ w : Word, opField w = 0x4 → w ≠ 0x40000000 → AnsweredIllegal w)

/-- R183: `INITE` with a legal staged round count begins the wait and raises one request for 44 bytes; it writes nothing
else and answers nothing yet; with another count it answers `CONFIG_ERROR` and requests nothing; its one word is
`0x50000000`. -/
def Obligations.IniteRequestsEntropyAndWaits : Prop :=
  (∀ s : State, s.srounds ≠ 0 → s.srounds.toNat % 2 = 0 →
    exec .inite s = .next { s with pending := .waitEntropy, requests := s.requests ++ [⟨44⟩] }) ∧
  (∀ s : State, (s.srounds = 0 ∨ s.srounds.toNat % 2 = 1) →
    exec .inite s = .next { s with responses := s.responses ++ [⟨0x2, 0⟩] }) ∧
  Runs 0x50000000 .inite ∧ (∀ w : Word, opField w = 0x5 → w ≠ 0x50000000 → AnsweredIllegal w)

/-- R185: the answer `EntropyOk(e)` to its request completes the waiting `INITE`: bytes 0 to 31 are the key, bytes 32 to
43 the nonce. -/
def Obligations.EntropyAnswerCompletesInite : Prop :=
  ∀ (s : State) (e : Vector Byte 44) (es : List Event) (key : Vector Byte 32) (nonce : Vector Byte 12),
    s.pending = .waitEntropy → s.events = .answer s.requests.length (.ok e) :: es →
    (∀ (j : Nat) (hj : j < 32), key[j] = e[j]) → (∀ (j : Nat) (hj : j < 12), nonce[j] = e[32 + j]) →
    step s = .next { s with
      key := key, nonce := nonce, rounds := s.srounds, counter := 1, buf := Vector.replicate 64 0,
      cursor := 64, wrapped := false, constructed := true, pending := .idle, events := es,
      responses := s.responses ++ [⟨0x0, 0⟩] }

/-- R186: `EntropyFail`, or fewer than 44 bytes, in answer to its request ends the wait with `ENTROPY_ERROR` and changes
nothing else. -/
def Obligations.EntropyFailureKeepsEveryField : Prop :=
  ∀ (s : State) (a : EntropyAnswer) (es : List Event),
    s.pending = .waitEntropy → s.events = .answer s.requests.length a :: es → (a = .fail ∨ ∃ n, a = .short n) →
    step s = .next { s with pending := .idle, events := es, responses := s.responses ++ [⟨0x3, 0⟩] }

/-- Construction from entropy is explicit construction with the entropy bytes as key and nonce (44_construction.md §4). -/
def Obligations.EntropyConstructionIsExplicitConstruction : Prop :=
  ∀ (s t u : State) (e : Vector Byte 44) (es : List Event) (key : Vector Byte 32) (nonce : Vector Byte 12),
    s.pending = .waitEntropy → s.events = .answer s.requests.length (.ok e) :: es →
    s.srounds ≠ 0 → s.srounds.toNat % 2 = 0 →
    (∀ (j : Nat) (hj : j < 32), key[j] = e[j]) → (∀ (j : Nat) (hj : j < 12), nonce[j] = e[32 + j]) →
    step s = .next t → exec .initk { s with skey := key, snonce := nonce } = .next u →
    SameGenerator t u ∧ t.skey = s.skey ∧ t.snonce = s.snonce ∧ t.srounds = s.srounds

/-- R178: after a construction, by `INITK` or by the entropy answer, nothing of the old generator is left: two states with
the same inputs of the construction give the same generator, whatever generator stood before. -/
def Obligations.ReconstructionForgetsTheOldGenerator : Prop :=
  ∀ s s' t t' : State, s'.srounds = s.srounds → s.srounds ≠ 0 → s.srounds.toNat % 2 = 0 →
    (s'.skey = s.skey → s'.snonce = s.snonce → exec .initk s = .next t → exec .initk s' = .next t' →
      SameGenerator t t' ∧ t.constructed = true) ∧
    (∀ (e : Vector Byte 44) (es es' : List Event), s.pending = .waitEntropy → s'.pending = .waitEntropy →
      s.events = .answer s.requests.length (.ok e) :: es → s'.events = .answer s'.requests.length (.ok e) :: es' →
      step s = .next t → step s' = .next t' →
      SameGenerator t t' ∧ t.constructed = true)

/-- R179: a failed construction, by `CONFIG_ERROR` at once or by `ENTROPY_ERROR` after any wait, leaves every field as it
was before the command. -/
def Obligations.FailedConstructionChangesNoField : Prop :=
  ∀ s : State,
    (∀ t, (s.srounds = 0 ∨ s.srounds.toNat % 2 = 1) → (exec .initk s = .next t ∨ exec .inite s = .next t) →
      SameRecord s t) ∧
    (∀ (u t : State) (ws : List Word) (es : List Event) (a : EntropyAnswer), s.pending = .idle → s.srounds ≠ 0 →
      s.srounds.toNat % 2 = 0 → s.events = ws.map Event.present ++ .answer u.requests.length a :: es →
      (a = .fail ∨ ∃ n, a = .short n) →
      exec .inite s = .next u → Steps (ws.length + 1) u t →
      SameRecord s t ∧ t.responses = s.responses ++ [⟨0x3, 0⟩])

/-- R188: `ZERO` puts every field at its reset value and answers `OK`, in every state; its one word is `0x90000000`. -/
def Obligations.ZeroReturnsToTheResetState : Prop :=
  (∀ s : State, ∃ t, exec .zero s = .next t ∧ SameRecord State.reset t ∧ t.responses = s.responses ++ [⟨0x0, 0⟩]) ∧
  Runs 0x90000000 .zero ∧ (∀ w : Word, opField w = 0x9 → w ≠ 0x90000000 → AnsweredIllegal w)

/-- R39: the reset value of every field; reset and `ZERO` both write these values. -/
def Obligations.ResetStateHoldsTheSpecsValues : Prop :=
  (∀ (j : Nat) (hj : j < 32), State.reset.skey[j] = 0 ∧ State.reset.key[j] = 0) ∧
  (∀ (j : Nat) (hj : j < 12), State.reset.snonce[j] = 0 ∧ State.reset.nonce[j] = 0) ∧
  (∀ (j : Nat) (hj : j < 64), State.reset.buf[j] = 0) ∧
  State.reset.srounds = 20 ∧ State.reset.constructed = false ∧ State.reset.rounds = 0 ∧ State.reset.counter = 0 ∧
  State.reset.cursor = 64 ∧ State.reset.wrapped = false ∧ State.reset.pending = .idle ∧
  (∀ s : State, SameRecord State.reset (s.arrive .reset) ∧
    ∀ t, exec .zero s = .next t → SameRecord State.reset t)

/-- R240: asserting reset gives every field its reset value, in any state; the parameter stays. -/
def Obligations.ResetInputSetsTheResetValues : Prop :=
  ∀ (s : State) (es : List Event), s.events = .reset :: es → (s.pending = .waitEntropy ∨ s.port = []) →
    ∃ t, step s = .next t ∧ SameRecord State.reset t ∧ t.ctrOvf = s.ctrOvf

/-- Reset ends a waiting `INITE` with no response and leaves the reset state; an answer to the abandoned request that
arrives at any time after it is discarded, even while a newer `INITE` waits (70_reset_and_hazards.md §1). That the same
holds of a smaller number, the number of a request already answered or abandoned before, or 0, which no request has, is
the model's choice (log 7). -/
def Obligations.ResetAbandonsTheWaitingInite : Prop :=
  ∀ (s : State) (es : List Event), s.pending = .waitEntropy → s.events = .reset :: es →
    ∃ t, step s = .next t ∧ SameRecord State.reset t ∧ t.responses = s.responses ∧
      ∀ (n : Nat) (u : State) (request : Nat) (a : EntropyAnswer), Steps n t u → request ≤ s.requests.length →
        u.nextMove = .arrive (.answer request a) → step u = .next { u with events := u.events.tail }

/-- Reset wins over an entropy answer that arrives with it, and an answer with no `INITE` waiting changes nothing
(60_exceptions.md §2). That an answer to any other request than the waiting `INITE`'s changes nothing, also to one already
answered or never raised, is the model's choice (log 7). -/
def Obligations.ResetWinsAndStrayAnswersAreDiscarded : Prop :=
  ∀ (s : State) (request : Nat) (a : EntropyAnswer) (es : List Event),
    ((s.pending = .waitEntropy ∨ s.port = []) → s.events = .resetAndAnswer a :: es →
      step s = step { s with events := .reset :: es }) ∧
    (((s.pending = .idle ∧ s.port = []) ∨ (s.pending = .waitEntropy ∧ request ≠ s.requests.length)) →
      s.events = .answer request a :: es → step s = .next { s with events := es })

/-! ### The keystream cursor -/

/-- R215: `NEXTB` with no generator answers `NOT_CONSTRUCTED`, and no other command ever does. -/
def Obligations.OnlyNextbReportsNotConstructed : Prop :=
  (∀ s : State, s.constructed = false →
    exec .nextb s = .next { s with responses := s.responses ++ [⟨0x4, 0⟩] }) ∧
  (∀ (i : Instr) (s t : State) (d : Word), exec i s = .next t → t.responses = s.responses ++ [⟨0x4, d⟩] →
    i = .nextb ∧ s.constructed = false)

/-- R150: `NEXTB` with the cursor below 64 serves the byte there and moves the cursor, and nothing else changes; at 64 it
refills first; without a generator, or exhausted under `HALT`, it answers the error and changes nothing; its one word is
`0x60000000`. -/
def Obligations.NextbServesTheNextByte : Prop :=
  (∀ (s : State) (h : s.cursor.val < 64), s.constructed = true →
    exec .nextb s = .next { s with
      cursor := ⟨s.cursor.val + 1, by omega⟩,
      responses := s.responses ++ [⟨0x0, (s.buf[s.cursor.val]).setWidth 32⟩] }) ∧
  (∀ s : State, s.constructed = true → s.cursor = 64 → ¬ (s.wrapped = true ∧ s.ctrOvf = .halt) →
    exec .nextb s = exec .nextb s.refill) ∧
  (∀ s : State, s.constructed = false → exec .nextb s = .next { s with responses := s.responses ++ [⟨0x4, 0⟩] }) ∧
  (∀ s : State, s.constructed = true → s.cursor = 64 → s.wrapped = true → s.ctrOvf = .halt →
    exec .nextb s = .next { s with responses := s.responses ++ [⟨0x5, 0⟩] }) ∧
  Runs 0x60000000 .nextb ∧ (∀ w : Word, opField w = 0x6 → w ≠ 0x60000000 → AnsweredIllegal w)

/-- R151 inside R150: `NEXTB` with the cursor at 64 stores the block of the current counter, records a wrap, advances the
counter by one mod 2^32, serves byte 0 and leaves the cursor at 1; nothing else changes. No other command moves the
counter or the buffer, but for the two that write their starting values. -/
def Obligations.NextbRefillsAtTheEndOfTheBuffer : Prop :=
  (∀ s : State, s.constructed = true → s.cursor = 64 → (s.wrapped = false ∨ s.ctrOvf = .wrap) →
    exec .nextb s = .next { s with
      buf := chachaBlock s.key s.nonce s.counter s.rounds,
      wrapped := if s.counter = 0xFFFFFFFF then true else s.wrapped,
      counter := s.counter + 1,
      cursor := 1,
      responses := s.responses ++ [⟨0x0, ((chachaBlock s.key s.nonce s.counter s.rounds)[0]).setWidth 32⟩] }) ∧
  (∀ (i : Instr) (s t : State), exec i s = .next t → (t.counter ≠ s.counter ∨ t.buf ≠ s.buf) →
    (i = .nextb ∧ s.cursor = 64) ∨ i = .initk ∨ i = .zero)

/-- R216: `COUNTER_EXHAUSTED` is raised by `NEXTB` only, only under `HALT`, and exactly when a refill is due after a wrap;
the command then changes nothing. -/
def Obligations.CounterExhaustedOnlyUnderHalt : Prop :=
  (∀ s : State, s.constructed = true → s.cursor = 64 → s.wrapped = true → s.ctrOvf = .halt →
    exec .nextb s = .next { s with responses := s.responses ++ [⟨0x5, 0⟩] }) ∧
  (∀ (i : Instr) (s t : State) (d : Word), exec i s = .next t → t.responses = s.responses ++ [⟨0x5, d⟩] →
    i = .nextb ∧ s.constructed = true ∧ s.cursor = 64 ∧ s.wrapped = true ∧ s.ctrOvf = .halt)

/-- Under `WRAP` the bytes that a generator serves repeat after 2^38 of them (43_keystream_cursor.md, the reuse
boundary). -/
def Obligations.ServedBytesRepeatAfter256GiB : Prop :=
  ∀ (s : State) (n : Nat), s.Fresh → s.ctrOvf = .wrap → Undisturbed n s →
    ∀ (k : Nat) (b b' : Byte), (bytesServed n s)[k]? = some b → (bytesServed n s)[k + 2 ^ 38]? = some b' → b' = b

/-- The stream guarantee (43_keystream_cursor.md): from a fresh generator, whatever commands, answers and presented words interleave without beginning or ending
a generator lifetime, the k-th successful `NEXTB` returns byte k of the keystream; under `HALT` at most
`(2^32 - 1) * 64` bytes are ever served. -/
def Obligations.NextbsServeTheKeystreamInOrder : Prop :=
  ∀ (s : State) (n : Nat), s.Fresh → Undisturbed n s →
    (∀ (k : Nat) (b : Byte), (bytesServed n s)[k]? = some b → b = keystreamByte s.key s.nonce s.rounds k) ∧
    (s.ctrOvf = .halt → (bytesServed n s).length ≤ (2 ^ 32 - 1) * 64)

/-- The refill count (43_keystream_cursor.md): n successful `NEXTB`s from a fresh generator take `ceil(n / 64)` refills,
and the counter is then `1 + ceil(n / 64)` mod 2^32. -/
def Obligations.CounterCountsTheRefills : Prop :=
  ∀ (s t : State) (n : Nat), s.Fresh → Undisturbed n s → Steps n s t →
    refillsDone n s = ((bytesServed n s).length + 63) / 64 ∧
    t.counter = BitVec.ofNat 32 (1 + ((bytesServed n s).length + 63) / 64)

/-- R156: two fresh generators with the same key, nonce and round count serve the same bytes, however their commands
interleave. -/
def Obligations.EqualSeedsServeEqualBytes : Prop :=
  ∀ (s s' : State) (n n' : Nat), s.Fresh → s'.Fresh → s'.key = s.key → s'.nonce = s.nonce → s'.rounds = s.rounds →
    Undisturbed n s → Undisturbed n' s' →
    ∀ (k : Nat) (b b' : Byte), (bytesServed n s)[k]? = some b → (bytesServed n' s')[k]? = some b' → b = b'

/-! ### Invariants and whole-machine rules -/

/-- The invariants of 10_state.md §3 hold in every state that a run reaches from power-up, under either policy and whatever the outside
agents do. -/
def Obligations.ReachableStatesAreSound : Prop :=
  ∀ s : State, Reachable s → s.Sound

/-- Every step keeps R31 together with the legal round count of a waiting `INITE`, from every state that meets them. -/
def Obligations.EveryStepKeepsTheInvariant : Prop :=
  ∀ s t : State, s.Inv → step s = .next t → t.Inv

/-- The reset state meets the invariant. -/
def Obligations.ResetStateMeetsTheInvariant : Prop := State.reset.Inv

/-- From a state that meets the invariant every run is safe, for any number of steps. -/
def Obligations.EveryRunIsSafe : Prop :=
  ∀ (s : State) (n : Nat), s.Inv → SafeFor n s

/-- Key, nonce and round count change only where a lifetime begins or ends (10_state.md §3). -/
def Obligations.KeyAndNonceAreConstantForALifetime : Prop :=
  ∀ s t : State, step s = .next t → s.endsLifetime = false →
    t.key = s.key ∧ t.nonce = s.nonce ∧ t.rounds = s.rounds ∧ t.constructed = s.constructed

/-- R23: `constructed` becomes 1 at a successful construction and 0 at `ZERO` and reset; nothing else changes it. -/
def Obligations.ConstructedChangesOnlyAtLifetimeBounds : Prop :=
  ∀ s t : State, step s = .next t →
    (t.constructed = true ↔ s.constructs ∨ (s.constructed = true ∧ ¬ s.destroys))

/-- R29: the refill that moves the counter from `0xFFFFFFFF` to 0 sets `wrapped`; construction, `ZERO` and reset clear it;
nothing else changes it. -/
def Obligations.WrappedIsSticky : Prop :=
  ∀ s t : State, step s = .next t →
    (t.wrapped = true ↔
      (s.accepts .nextb ∧ s.constructed = true ∧ s.cursor = 64 ∧ s.counter = 0xFFFFFFFF) ∨
      (s.wrapped = true ∧ ¬ s.constructs ∧ ¬ s.destroys)) ∧
    (s.wrapped = false → t.wrapped = true → t.counter = 0)

/-- What a destruction keeps. `CTR_OVF` is fixed at design time: no step, reset included, changes it (10_state.md §5).
`ZERO` and reset also leave the command port, the requests and, but for the answer of `ZERO`, the responses: that part
is the model's reading (log 3). -/
def Obligations.PortsAndPolicySurviveDestruction : Prop :=
  (∀ (n : Nat) (s t : State), Steps n s t → t.ctrOvf = s.ctrOvf) ∧
  (∀ s t : State, exec .zero s = .next t → SamePorts s t) ∧
  (∀ (s t : State) (es : List Event), s.events = .reset :: es → (s.pending = .waitEntropy ∨ s.port = []) →
    step s = .next t → t = { State.reset with
      ctrOvf := s.ctrOvf, port := s.port, events := es, responses := s.responses, requests := s.requests })

/-! ### What can be observed -/

/-- R200: the fields of the status word, and its reset value under either policy. -/
def Obligations.StatusWordFields : Prop :=
  (∀ s : State,
    s.statusWord.getLsbD 0 = s.constructed ∧ s.statusWord.getLsbD 1 = s.wrapped ∧
    (s.statusWord.getLsbD 2 = true ↔ s.ctrOvf = .halt) ∧
    s.statusWord.extractLsb' 3 5 = 0 ∧ (s.statusWord.extractLsb' 8 7).toNat = s.cursor.val ∧
    s.statusWord.getLsbD 15 = false ∧ s.statusWord.extractLsb' 16 8 = s.rounds ∧
    s.statusWord.extractLsb' 24 8 = s.srounds) ∧
  (∀ es : List Event, (powerUp .wrap es).statusWord = 0x14004000 ∧ (powerUp .halt es).statusWord = 0x14004004)

/-- R201: `RDSTAT` answers the status word in every state and writes nothing; its one word is `0x70000000`. -/
def Obligations.RdstatAnswersTheStatusWord : Prop :=
  (∀ s : State, exec .rdstat s = .next { s with responses := s.responses ++ [⟨0x0, s.statusWord⟩] }) ∧
  Runs 0x70000000 .rdstat ∧ (∀ w : Word, opField w = 0x7 → w ≠ 0x70000000 → AnsweredIllegal w)

/-- R202: `RDCTR` answers the block counter in every state and writes nothing; its one word is `0x80000000`. -/
def Obligations.RdctrAnswersTheCounter : Prop :=
  (∀ s : State, exec .rdctr s = .next { s with responses := s.responses ++ [⟨0x0, s.counter⟩] }) ∧
  Runs 0x80000000 .rdctr ∧ (∀ w : Word, opField w = 0x8 → w ≠ 0x80000000 → AnsweredIllegal w)

/-- No command reads a staging secret: two states that differ only in `skey` and `snonce` answer every command alike, and
only `INITK` lets the difference into the generator (10_state.md §2, 70_reset_and_hazards.md §3). -/
def Obligations.StagingSecretsAreNotReadOut : Prop :=
  ∀ (i : Instr) (s t t' : State) (k : Vector Byte 32) (n : Vector Byte 12),
    exec i s = .next t → exec i { s with skey := k, snonce := n } = .next t' →
    t'.responses = t.responses ∧ t'.pending = t.pending ∧ t'.requests = t.requests ∧
    (i ≠ .initk → SameGenerator t t')

/-- No command reads key or nonce out: only a `NEXTB` that refills depends on them (10_state.md §3 and §5). One that is
refused, with no generator or exhausted under `HALT`, does not refill. -/
def Obligations.OnlyARefillDependsOnKeyAndNonce : Prop :=
  ∀ (i : Instr) (s t t' : State) (k : Vector Byte 32) (n : Vector Byte 12),
    (i = .nextb → s.constructed = false ∨ s.cursor ≠ 64 ∨ (s.wrapped = true ∧ s.ctrOvf = .halt)) →
    exec i s = .next t → exec i { s with key := k, nonce := n } = .next t' →
    t'.responses = t.responses ∧ t'.buf = t.buf ∧ t'.counter = t.counter ∧ t'.cursor = t.cursor ∧
    t'.wrapped = t.wrapped ∧ t'.constructed = t.constructed ∧ t'.rounds = t.rounds ∧ t'.pending = t.pending

/-! ### The block function -/

/-- R13: the little-endian composition by its formula, and its inverse. -/
def Obligations.LittleEndianCompositionInverts : Prop :=
  (∀ b0 b1 b2 b3 : Byte,
    le32 b0 b1 b2 b3 =
      b0.setWidth 32 ||| (b1.setWidth 32 <<< 8) ||| (b2.setWidth 32 <<< 16) ||| (b3.setWidth 32 <<< 24) ∧
    leBytes (le32 b0 b1 b2 b3) = #v[b0, b1, b2, b3]) ∧
  (∀ w : Word,
    leBytes w = #v[w.extractLsb' 0 8, w.extractLsb' 8 8, w.extractLsb' 16 8, w.extractLsb' 24 8] ∧
    le32 (leBytes w)[0] (leBytes w)[1] (leBytes w)[2] (leBytes w)[3] = w)

/-- Byte by byte, the initial state is constants, key, counter and nonce, each byte in its own lane
(40_state_initializer.md). -/
def Obligations.InitialStateLayout : Prop :=
  ∀ (key : Vector Byte 32) (nonce : Vector Byte 12) (ctr : Word),
    (initState key nonce ctr)[0] = 0x61707865 ∧ (initState key nonce ctr)[1] = 0x3320646e ∧
    (initState key nonce ctr)[2] = 0x79622d32 ∧ (initState key nonce ctr)[3] = 0x6b206574 ∧
    (∀ (j : Nat) (hj : j < 32), ((initState key nonce ctr)[4 + j / 4]).extractLsb' (8 * (j % 4)) 8 = key[j]) ∧
    (initState key nonce ctr)[12] = ctr ∧
    (∀ (j : Nat) (hj : j < 12), ((initState key nonce ctr)[13 + j / 4]).extractLsb' (8 * (j % 4)) 8 = nonce[j])

/-- The map from key, nonce and counter to the initial state is injective (40_state_initializer.md). -/
def Obligations.InitialStateIsInjective : Prop :=
  ∀ (key key' : Vector Byte 32) (nonce nonce' : Vector Byte 12) (ctr ctr' : Word),
    initState key nonce ctr = initState key' nonce' ctr' → key = key' ∧ nonce = nonce' ∧ ctr = ctr'

/-- On four distinct slots the quarter round is the add-rotate-xor of its four lines, and the other slots stay
(41_permutation_engine.md §1). The rotation is the formula of 00_scope.md §5, which the spec takes from general knowledge
(log 9, PRESUMED). -/
def Obligations.QuarterRoundMixesItsFourSlots : Prop :=
  (∀ (w : Words) (a b c d : Fin 16), a ≠ b → a ≠ c → a ≠ d → b ≠ c → b ≠ d → c ≠ d →
    (∀ a1 d1 c1 b1 a2 d2 c2 b2 : Word,
      a1 = w[a] + w[b] → d1 = rotl (w[d] ^^^ a1) 16 → c1 = w[c] + d1 → b1 = rotl (w[b] ^^^ c1) 12 →
      a2 = a1 + b1 → d2 = rotl (d1 ^^^ a2) 8 → c2 = c1 + d2 → b2 = rotl (b1 ^^^ c2) 7 →
      (quarterRound w a b c d)[a] = a2 ∧ (quarterRound w a b c d)[b] = b2 ∧
      (quarterRound w a b c d)[c] = c2 ∧ (quarterRound w a b c d)[d] = d2) ∧
    (∀ j : Fin 16, j ≠ a → j ≠ b → j ≠ c → j ≠ d → (quarterRound w a b c d)[j] = w[j])) ∧
  (∀ (x : Word) (n : Nat), 0 < n → n < 32 → rotl x n = (x <<< n) ||| (x >>> (32 - n)))

/-- R128: the result of a round does not depend on the order of its four quarter rounds. -/
def Obligations.QuarterRoundsOfARoundCommute : Prop :=
  ∀ (w : Words) (l : List (Fin 16 × Fin 16 × Fin 16 × Fin 16)),
    (l.Perm [(0, 4, 8, 12), (1, 5, 9, 13), (2, 6, 10, 14), (3, 7, 11, 15)] →
      l.foldl (fun v g => quarterRound v g.1 g.2.1 g.2.2.1 g.2.2.2) w = columnRound w) ∧
    (l.Perm [(0, 5, 10, 15), (1, 6, 11, 12), (2, 7, 8, 13), (3, 4, 9, 14)] →
      l.foldl (fun v g => quarterRound v g.1 g.2.1 g.2.2.1 g.2.2.2) w = diagonalRound w)

/-- The engine applies R/2 double rounds: none for 0, and two more rounds are one more double round at the end
(41_permutation_engine.md §3). -/
def Obligations.TwoMoreRoundsAreOneDoubleRound : Prop :=
  ∀ s0 : Words, permute s0 0 = s0 ∧
    ∀ r : Byte, r.toNat + 2 < 256 → permute s0 (r + 2) = diagonalRound (columnRound (permute s0 r))

/-- R140, R141, R143: byte `4i + j` of the finalized block is bits `8j+7:8j` of `w[i] + s0[i]`; of the block of a key, nonce,
counter and round count, with `s0` their initial state and `w` its permutation. -/
def Obligations.FinalizedBytesAreLittleEndianSums : Prop :=
  (∀ (w s0 : Words) (i j : Nat) (hi : i < 16) (hj : j < 4),
    (finalize w s0)[4 * i + j] = (w[i] + s0[i]).extractLsb' (8 * j) 8) ∧
  (∀ (key : Vector Byte 32) (nonce : Vector Byte 12) (ctr : Word) (r : Byte) (i j : Nat) (hi : i < 16) (hj : j < 4),
    (chachaBlock key nonce ctr r)[4 * i + j] =
      ((permute (initState key nonce ctr) r)[i] + (initState key nonce ctr)[i]).extractLsb' (8 * j) 8)
end

