-- ==== Sys2Proof/Laws/Cipher.lean ====
section
/-! SUPPORT. The slots that the parts of the block function read and write. -/

namespace Sys2Proof.Machine

/-- Two word arrays with the same words are the same. -/
theorem words_ext {v w : Words} (h : ∀ j : Fin 16, v[j] = w[j]) : v = w := by
  ext1 j hj
  exact h ⟨j, hj⟩

/-- A line of the quarter round leaves every slot but its two destinations. -/
theorem mixLine_other (w : Words) {x y z j : Fin 16} (n : Nat) (hx : j ≠ x) (hz : j ≠ z) :
    (mixLine w x y z n)[j] = w[j] := by
  have hx' : x.val ≠ j.val := fun h => hx (Fin.ext h.symm)
  have hz' : z.val ≠ j.val := fun h => hz (Fin.ext h.symm)
  simp [mixLine, Vector.getElem_set_ne, hx', hz']

/-- The slot that a line adds to. -/
theorem mixLine_sum (w : Words) {x y z : Fin 16} (n : Nat) (h : x ≠ z) :
    (mixLine w x y z n)[x] = w[x] + w[y] := by
  have h' : z.val ≠ x.val := fun e => h (Fin.ext e.symm)
  simp [mixLine, Vector.getElem_set_ne, h']

/-- The slot that a line xors and rotates. -/
theorem mixLine_rot (w : Words) {x y z : Fin 16} (n : Nat) (h : x ≠ z) :
    (mixLine w x y z n)[z] = rotl (w[z] ^^^ (w[x] + w[y])) n := by
  have h' : x.val ≠ z.val := fun e => h (Fin.ext e)
  simp [mixLine, Vector.getElem_set_ne, h']

/-- One more double round, at the end. -/
theorem doubleRounds_succ (n : Nat) (w : Words) : doubleRounds (n + 1) w = doubleRound (doubleRounds n w) := by
  induction n generalizing w with
  | zero => rfl
  | succ n ih => rw [doubleRounds, ih, doubleRounds]

theorem initState_key (key : Vector Byte 32) (nonce : Vector Byte 12) (ctr : Word) (k : Nat) (hk : k < 8) :
    (initState key nonce ctr)[4 + k] = keyWord key ⟨k, hk⟩ := by
  interval_cases k <;> rfl

theorem initState_nonce (key : Vector Byte 32) (nonce : Vector Byte 12) (ctr : Word) (k : Nat) (hk : k < 3) :
    (initState key nonce ctr)[13 + k] = nonceWord nonce ⟨k, hk⟩ := by
  interval_cases k <;> rfl

theorem addWords_getElem (w s0 : Words) (i : Nat) (hi : i < 16) : (addWords w s0)[i] = w[i] + s0[i] := by
  simp [addWords]

theorem serialize_getElem (out : Words) (n : Nat) (hn : n < 64) :
    (serialize out)[n] = byteOf out[n / 4] (n % 4) := by
  simp [serialize]

/-- The key part of an entropy answer is its first 32 bytes. -/
theorem entropyKey_eq {e : Vector Byte 44} {key : Vector Byte 32}
    (h : ∀ (j : Nat) (hj : j < 32), key[j] = e[j]) : entropyKey e = key := by
  ext1 j hj
  simp [entropyKey, h]

/-- The nonce part of an entropy answer is its last 12 bytes. -/
theorem entropyNonce_eq {e : Vector Byte 44} {nonce : Vector Byte 12}
    (h : ∀ (j : Nat) (hj : j < 12), nonce[j] = e[32 + j]) : entropyNonce e = nonce := by
  ext1 j hj
  simp [entropyNonce, h]

end Sys2Proof.Machine
end

