-- ==== Sys2Proof/Laws/Encoding.lean ====
section
/-! SUPPORT. The fields of a composed command word, and a word as the composition of its fields. -/

namespace Sys2Proof

/-- The bits below 28 of an opcode pattern are zero. -/
theorem getElem_of_opcodeBits {op : Word} (h : op &&& 0x0FFFFFFF = 0) {k : Nat} (hk : k < 28) :
    op[k] = false := by
  have hbit : (op &&& 0x0FFFFFFF).getLsbD k = (0 : Word).getLsbD k := by rw [h]
  have hmask : (0x0FFFFFFF : Word).getLsbD k = true := by interval_cases k <;> decide
  rw [BitVec.getLsbD_and, hmask, Bool.and_true] at hbit
  rw [← BitVec.getLsbD_eq_getElem, hbit]
  simp

theorem opField_commandWord (op : Word) (idx imm : Byte) :
    opField (commandWord op idx imm) = opField op := by
  apply BitVec.eq_of_getLsbD_eq
  intro k hk
  interval_cases k <;> simp [opField, commandWord, BitVec.getLsbD_of_ge]

theorem rsvField_commandWord {op : Word} (h : op &&& 0x0FFFFFFF = 0) (idx imm : Byte) :
    rsvField (commandWord op idx imm) = 0 := by
  apply BitVec.eq_of_getLsbD_eq
  intro k hk
  interval_cases k <;> simp [rsvField, commandWord, getElem_of_opcodeBits h, BitVec.getLsbD_of_ge]

theorem idxField_commandWord {op : Word} (h : op &&& 0x0FFFFFFF = 0) (idx imm : Byte) :
    idxField (commandWord op idx imm) = idx := by
  apply BitVec.eq_of_getLsbD_eq
  intro k hk
  interval_cases k <;> simp [idxField, commandWord, getElem_of_opcodeBits h, BitVec.getLsbD_of_ge]

theorem immField_commandWord {op : Word} (h : op &&& 0x0FFFFFFF = 0) (idx imm : Byte) :
    immField (commandWord op idx imm) = imm := by
  apply BitVec.eq_of_getLsbD_eq
  intro k hk
  interval_cases k <;> simp [immField, commandWord, getElem_of_opcodeBits h]

/-- A word is the composition of its four fields. -/
theorem word_of_fields (w : Word) :
    ((opField w).setWidth 32 <<< 28) ||| ((rsvField w).setWidth 32 <<< 16) |||
      ((idxField w).setWidth 32 <<< 8) ||| (immField w).setWidth 32 = w := by
  apply BitVec.eq_of_getLsbD_eq
  intro k hk
  interval_cases k <;> simp [opField, rsvField, idxField, immField]

/-- A word whose `RSV` is zero is the command word of its opcode bits and operands. -/
theorem commandWord_of_fields {w : Word} (h : rsvField w = 0) :
    commandWord ((opField w).setWidth 32 <<< 28) (idxField w) (immField w) = w := by
  have hw := word_of_fields w
  rw [h] at hw
  simpa [commandWord] using hw

/-- A 4-bit field is its numeral. -/
theorem field_eq_ofNat {n m : Nat} {x : BitVec n} (h : x.toNat = m) : x = BitVec.ofNat n m := by
  rw [← h, BitVec.ofNat_toNat, BitVec.setWidth_eq]

end Sys2Proof
end

