-- ==== Sys2Proof/Laws/State.lean ====
section
/-! SUPPORT. What each update of a state does to each field: one lemma per field per update, true by `rfl`. -/

namespace Sys2Proof.Machine

variable (s : State)

/-! `State.respond` -/

@[simp] theorem State.respond_skey (c : StatusCode) (d : Word) : (s.respond c d).skey = s.skey := rfl
@[simp] theorem State.respond_snonce (c : StatusCode) (d : Word) : (s.respond c d).snonce = s.snonce := rfl
@[simp] theorem State.respond_srounds (c : StatusCode) (d : Word) : (s.respond c d).srounds = s.srounds := rfl
@[simp] theorem State.respond_constructed (c : StatusCode) (d : Word) :
    (s.respond c d).constructed = s.constructed := rfl
@[simp] theorem State.respond_key (c : StatusCode) (d : Word) : (s.respond c d).key = s.key := rfl
@[simp] theorem State.respond_nonce (c : StatusCode) (d : Word) : (s.respond c d).nonce = s.nonce := rfl
@[simp] theorem State.respond_rounds (c : StatusCode) (d : Word) : (s.respond c d).rounds = s.rounds := rfl
@[simp] theorem State.respond_counter (c : StatusCode) (d : Word) : (s.respond c d).counter = s.counter := rfl
@[simp] theorem State.respond_buf (c : StatusCode) (d : Word) : (s.respond c d).buf = s.buf := rfl
@[simp] theorem State.respond_cursor (c : StatusCode) (d : Word) : (s.respond c d).cursor = s.cursor := rfl
@[simp] theorem State.respond_wrapped (c : StatusCode) (d : Word) : (s.respond c d).wrapped = s.wrapped := rfl
@[simp] theorem State.respond_pending (c : StatusCode) (d : Word) : (s.respond c d).pending = s.pending := rfl
@[simp] theorem State.respond_ctrOvf (c : StatusCode) (d : Word) : (s.respond c d).ctrOvf = s.ctrOvf := rfl
@[simp] theorem State.respond_port (c : StatusCode) (d : Word) : (s.respond c d).port = s.port := rfl
@[simp] theorem State.respond_events (c : StatusCode) (d : Word) : (s.respond c d).events = s.events := rfl
@[simp] theorem State.respond_responses (c : StatusCode) (d : Word) :
    (s.respond c d).responses = s.responses ++ [⟨c.bits, d⟩] := rfl
@[simp] theorem State.respond_requests (c : StatusCode) (d : Word) : (s.respond c d).requests = s.requests := rfl

/-! `State.writeSkey` -/

@[simp] theorem State.writeSkey_skey (i : Fin 32) (b : Byte) : (s.writeSkey i b).skey = s.skey.set i b := rfl
@[simp] theorem State.writeSkey_snonce (i : Fin 32) (b : Byte) : (s.writeSkey i b).snonce = s.snonce := rfl
@[simp] theorem State.writeSkey_srounds (i : Fin 32) (b : Byte) : (s.writeSkey i b).srounds = s.srounds := rfl
@[simp] theorem State.writeSkey_constructed (i : Fin 32) (b : Byte) :
    (s.writeSkey i b).constructed = s.constructed := rfl
@[simp] theorem State.writeSkey_key (i : Fin 32) (b : Byte) : (s.writeSkey i b).key = s.key := rfl
@[simp] theorem State.writeSkey_nonce (i : Fin 32) (b : Byte) : (s.writeSkey i b).nonce = s.nonce := rfl
@[simp] theorem State.writeSkey_rounds (i : Fin 32) (b : Byte) : (s.writeSkey i b).rounds = s.rounds := rfl
@[simp] theorem State.writeSkey_counter (i : Fin 32) (b : Byte) : (s.writeSkey i b).counter = s.counter := rfl
@[simp] theorem State.writeSkey_buf (i : Fin 32) (b : Byte) : (s.writeSkey i b).buf = s.buf := rfl
@[simp] theorem State.writeSkey_cursor (i : Fin 32) (b : Byte) : (s.writeSkey i b).cursor = s.cursor := rfl
@[simp] theorem State.writeSkey_wrapped (i : Fin 32) (b : Byte) : (s.writeSkey i b).wrapped = s.wrapped := rfl
@[simp] theorem State.writeSkey_pending (i : Fin 32) (b : Byte) : (s.writeSkey i b).pending = s.pending := rfl
@[simp] theorem State.writeSkey_ctrOvf (i : Fin 32) (b : Byte) : (s.writeSkey i b).ctrOvf = s.ctrOvf := rfl
@[simp] theorem State.writeSkey_port (i : Fin 32) (b : Byte) : (s.writeSkey i b).port = s.port := rfl
@[simp] theorem State.writeSkey_events (i : Fin 32) (b : Byte) : (s.writeSkey i b).events = s.events := rfl
@[simp] theorem State.writeSkey_responses (i : Fin 32) (b : Byte) : (s.writeSkey i b).responses = s.responses := rfl
@[simp] theorem State.writeSkey_requests (i : Fin 32) (b : Byte) : (s.writeSkey i b).requests = s.requests := rfl

/-! `State.writeSnonce` -/

@[simp] theorem State.writeSnonce_skey (i : Fin 12) (b : Byte) : (s.writeSnonce i b).skey = s.skey := rfl
@[simp] theorem State.writeSnonce_snonce (i : Fin 12) (b : Byte) : (s.writeSnonce i b).snonce = s.snonce.set i b := rfl
@[simp] theorem State.writeSnonce_srounds (i : Fin 12) (b : Byte) : (s.writeSnonce i b).srounds = s.srounds := rfl
@[simp] theorem State.writeSnonce_constructed (i : Fin 12) (b : Byte) :
    (s.writeSnonce i b).constructed = s.constructed := rfl
@[simp] theorem State.writeSnonce_key (i : Fin 12) (b : Byte) : (s.writeSnonce i b).key = s.key := rfl
@[simp] theorem State.writeSnonce_nonce (i : Fin 12) (b : Byte) : (s.writeSnonce i b).nonce = s.nonce := rfl
@[simp] theorem State.writeSnonce_rounds (i : Fin 12) (b : Byte) : (s.writeSnonce i b).rounds = s.rounds := rfl
@[simp] theorem State.writeSnonce_counter (i : Fin 12) (b : Byte) : (s.writeSnonce i b).counter = s.counter := rfl
@[simp] theorem State.writeSnonce_buf (i : Fin 12) (b : Byte) : (s.writeSnonce i b).buf = s.buf := rfl
@[simp] theorem State.writeSnonce_cursor (i : Fin 12) (b : Byte) : (s.writeSnonce i b).cursor = s.cursor := rfl
@[simp] theorem State.writeSnonce_wrapped (i : Fin 12) (b : Byte) : (s.writeSnonce i b).wrapped = s.wrapped := rfl
@[simp] theorem State.writeSnonce_pending (i : Fin 12) (b : Byte) : (s.writeSnonce i b).pending = s.pending := rfl
@[simp] theorem State.writeSnonce_ctrOvf (i : Fin 12) (b : Byte) : (s.writeSnonce i b).ctrOvf = s.ctrOvf := rfl
@[simp] theorem State.writeSnonce_port (i : Fin 12) (b : Byte) : (s.writeSnonce i b).port = s.port := rfl
@[simp] theorem State.writeSnonce_events (i : Fin 12) (b : Byte) : (s.writeSnonce i b).events = s.events := rfl
@[simp] theorem State.writeSnonce_responses (i : Fin 12) (b : Byte) : (s.writeSnonce i b).responses = s.responses := rfl
@[simp] theorem State.writeSnonce_requests (i : Fin 12) (b : Byte) : (s.writeSnonce i b).requests = s.requests := rfl

/-! `State.writeSrounds` -/

@[simp] theorem State.writeSrounds_skey (r : Byte) : (s.writeSrounds r).skey = s.skey := rfl
@[simp] theorem State.writeSrounds_snonce (r : Byte) : (s.writeSrounds r).snonce = s.snonce := rfl
@[simp] theorem State.writeSrounds_srounds (r : Byte) : (s.writeSrounds r).srounds = r := rfl
@[simp] theorem State.writeSrounds_constructed (r : Byte) : (s.writeSrounds r).constructed = s.constructed := rfl
@[simp] theorem State.writeSrounds_key (r : Byte) : (s.writeSrounds r).key = s.key := rfl
@[simp] theorem State.writeSrounds_nonce (r : Byte) : (s.writeSrounds r).nonce = s.nonce := rfl
@[simp] theorem State.writeSrounds_rounds (r : Byte) : (s.writeSrounds r).rounds = s.rounds := rfl
@[simp] theorem State.writeSrounds_counter (r : Byte) : (s.writeSrounds r).counter = s.counter := rfl
@[simp] theorem State.writeSrounds_buf (r : Byte) : (s.writeSrounds r).buf = s.buf := rfl
@[simp] theorem State.writeSrounds_cursor (r : Byte) : (s.writeSrounds r).cursor = s.cursor := rfl
@[simp] theorem State.writeSrounds_wrapped (r : Byte) : (s.writeSrounds r).wrapped = s.wrapped := rfl
@[simp] theorem State.writeSrounds_pending (r : Byte) : (s.writeSrounds r).pending = s.pending := rfl
@[simp] theorem State.writeSrounds_ctrOvf (r : Byte) : (s.writeSrounds r).ctrOvf = s.ctrOvf := rfl
@[simp] theorem State.writeSrounds_port (r : Byte) : (s.writeSrounds r).port = s.port := rfl
@[simp] theorem State.writeSrounds_events (r : Byte) : (s.writeSrounds r).events = s.events := rfl
@[simp] theorem State.writeSrounds_responses (r : Byte) : (s.writeSrounds r).responses = s.responses := rfl
@[simp] theorem State.writeSrounds_requests (r : Byte) : (s.writeSrounds r).requests = s.requests := rfl

/-! `State.construct` -/

@[simp] theorem State.construct_skey (k : Vector Byte 32) (n : Vector Byte 12) : (s.construct k n).skey = s.skey := rfl
@[simp] theorem State.construct_snonce (k : Vector Byte 32) (n : Vector Byte 12) :
    (s.construct k n).snonce = s.snonce := rfl
@[simp] theorem State.construct_srounds (k : Vector Byte 32) (n : Vector Byte 12) :
    (s.construct k n).srounds = s.srounds := rfl
@[simp] theorem State.construct_constructed (k : Vector Byte 32) (n : Vector Byte 12) :
    (s.construct k n).constructed = true := rfl
@[simp] theorem State.construct_key (k : Vector Byte 32) (n : Vector Byte 12) : (s.construct k n).key = k := rfl
@[simp] theorem State.construct_nonce (k : Vector Byte 32) (n : Vector Byte 12) : (s.construct k n).nonce = n := rfl
@[simp] theorem State.construct_rounds (k : Vector Byte 32) (n : Vector Byte 12) :
    (s.construct k n).rounds = s.srounds := rfl
@[simp] theorem State.construct_counter (k : Vector Byte 32) (n : Vector Byte 12) : (s.construct k n).counter = 1 := rfl
@[simp] theorem State.construct_buf (k : Vector Byte 32) (n : Vector Byte 12) :
    (s.construct k n).buf = Vector.replicate 64 0 := rfl
@[simp] theorem State.construct_cursor (k : Vector Byte 32) (n : Vector Byte 12) : (s.construct k n).cursor = 64 := rfl
@[simp] theorem State.construct_wrapped (k : Vector Byte 32) (n : Vector Byte 12) :
    (s.construct k n).wrapped = false := rfl
@[simp] theorem State.construct_pending (k : Vector Byte 32) (n : Vector Byte 12) :
    (s.construct k n).pending = s.pending := rfl
@[simp] theorem State.construct_ctrOvf (k : Vector Byte 32) (n : Vector Byte 12) :
    (s.construct k n).ctrOvf = s.ctrOvf := rfl
@[simp] theorem State.construct_port (k : Vector Byte 32) (n : Vector Byte 12) : (s.construct k n).port = s.port := rfl
@[simp] theorem State.construct_events (k : Vector Byte 32) (n : Vector Byte 12) :
    (s.construct k n).events = s.events := rfl
@[simp] theorem State.construct_responses (k : Vector Byte 32) (n : Vector Byte 12) :
    (s.construct k n).responses = s.responses := rfl
@[simp] theorem State.construct_requests (k : Vector Byte 32) (n : Vector Byte 12) :
    (s.construct k n).requests = s.requests := rfl

/-! `State.clear` -/

@[simp] theorem State.clear_skey : (s.clear).skey = Vector.replicate 32 0 := rfl
@[simp] theorem State.clear_snonce : (s.clear).snonce = Vector.replicate 12 0 := rfl
@[simp] theorem State.clear_srounds : (s.clear).srounds = 20 := rfl
@[simp] theorem State.clear_constructed : (s.clear).constructed = false := rfl
@[simp] theorem State.clear_key : (s.clear).key = Vector.replicate 32 0 := rfl
@[simp] theorem State.clear_nonce : (s.clear).nonce = Vector.replicate 12 0 := rfl
@[simp] theorem State.clear_rounds : (s.clear).rounds = 0 := rfl
@[simp] theorem State.clear_counter : (s.clear).counter = 0 := rfl
@[simp] theorem State.clear_buf : (s.clear).buf = Vector.replicate 64 0 := rfl
@[simp] theorem State.clear_cursor : (s.clear).cursor = 64 := rfl
@[simp] theorem State.clear_wrapped : (s.clear).wrapped = false := rfl
@[simp] theorem State.clear_pending : (s.clear).pending = .idle := rfl
@[simp] theorem State.clear_ctrOvf : (s.clear).ctrOvf = s.ctrOvf := rfl
@[simp] theorem State.clear_port : (s.clear).port = s.port := rfl
@[simp] theorem State.clear_events : (s.clear).events = s.events := rfl
@[simp] theorem State.clear_responses : (s.clear).responses = s.responses := rfl
@[simp] theorem State.clear_requests : (s.clear).requests = s.requests := rfl

/-! `State.requestEntropy` -/

@[simp] theorem State.requestEntropy_skey : (s.requestEntropy).skey = s.skey := rfl
@[simp] theorem State.requestEntropy_snonce : (s.requestEntropy).snonce = s.snonce := rfl
@[simp] theorem State.requestEntropy_srounds : (s.requestEntropy).srounds = s.srounds := rfl
@[simp] theorem State.requestEntropy_constructed : (s.requestEntropy).constructed = s.constructed := rfl
@[simp] theorem State.requestEntropy_key : (s.requestEntropy).key = s.key := rfl
@[simp] theorem State.requestEntropy_nonce : (s.requestEntropy).nonce = s.nonce := rfl
@[simp] theorem State.requestEntropy_rounds : (s.requestEntropy).rounds = s.rounds := rfl
@[simp] theorem State.requestEntropy_counter : (s.requestEntropy).counter = s.counter := rfl
@[simp] theorem State.requestEntropy_buf : (s.requestEntropy).buf = s.buf := rfl
@[simp] theorem State.requestEntropy_cursor : (s.requestEntropy).cursor = s.cursor := rfl
@[simp] theorem State.requestEntropy_wrapped : (s.requestEntropy).wrapped = s.wrapped := rfl
@[simp] theorem State.requestEntropy_pending : (s.requestEntropy).pending = .waitEntropy := rfl
@[simp] theorem State.requestEntropy_ctrOvf : (s.requestEntropy).ctrOvf = s.ctrOvf := rfl
@[simp] theorem State.requestEntropy_port : (s.requestEntropy).port = s.port := rfl
@[simp] theorem State.requestEntropy_events : (s.requestEntropy).events = s.events := rfl
@[simp] theorem State.requestEntropy_responses : (s.requestEntropy).responses = s.responses := rfl
@[simp] theorem State.requestEntropy_requests : (s.requestEntropy).requests = s.requests ++ [⟨44⟩] := rfl

/-! `State.endWait` -/

@[simp] theorem State.endWait_skey : (s.endWait).skey = s.skey := rfl
@[simp] theorem State.endWait_snonce : (s.endWait).snonce = s.snonce := rfl
@[simp] theorem State.endWait_srounds : (s.endWait).srounds = s.srounds := rfl
@[simp] theorem State.endWait_constructed : (s.endWait).constructed = s.constructed := rfl
@[simp] theorem State.endWait_key : (s.endWait).key = s.key := rfl
@[simp] theorem State.endWait_nonce : (s.endWait).nonce = s.nonce := rfl
@[simp] theorem State.endWait_rounds : (s.endWait).rounds = s.rounds := rfl
@[simp] theorem State.endWait_counter : (s.endWait).counter = s.counter := rfl
@[simp] theorem State.endWait_buf : (s.endWait).buf = s.buf := rfl
@[simp] theorem State.endWait_cursor : (s.endWait).cursor = s.cursor := rfl
@[simp] theorem State.endWait_wrapped : (s.endWait).wrapped = s.wrapped := rfl
@[simp] theorem State.endWait_pending : (s.endWait).pending = .idle := rfl
@[simp] theorem State.endWait_ctrOvf : (s.endWait).ctrOvf = s.ctrOvf := rfl
@[simp] theorem State.endWait_port : (s.endWait).port = s.port := rfl
@[simp] theorem State.endWait_events : (s.endWait).events = s.events := rfl
@[simp] theorem State.endWait_responses : (s.endWait).responses = s.responses := rfl
@[simp] theorem State.endWait_requests : (s.endWait).requests = s.requests := rfl

/-! `State.takeCommand` -/

@[simp] theorem State.takeCommand_skey : (s.takeCommand).skey = s.skey := rfl
@[simp] theorem State.takeCommand_snonce : (s.takeCommand).snonce = s.snonce := rfl
@[simp] theorem State.takeCommand_srounds : (s.takeCommand).srounds = s.srounds := rfl
@[simp] theorem State.takeCommand_constructed : (s.takeCommand).constructed = s.constructed := rfl
@[simp] theorem State.takeCommand_key : (s.takeCommand).key = s.key := rfl
@[simp] theorem State.takeCommand_nonce : (s.takeCommand).nonce = s.nonce := rfl
@[simp] theorem State.takeCommand_rounds : (s.takeCommand).rounds = s.rounds := rfl
@[simp] theorem State.takeCommand_counter : (s.takeCommand).counter = s.counter := rfl
@[simp] theorem State.takeCommand_buf : (s.takeCommand).buf = s.buf := rfl
@[simp] theorem State.takeCommand_cursor : (s.takeCommand).cursor = s.cursor := rfl
@[simp] theorem State.takeCommand_wrapped : (s.takeCommand).wrapped = s.wrapped := rfl
@[simp] theorem State.takeCommand_pending : (s.takeCommand).pending = s.pending := rfl
@[simp] theorem State.takeCommand_ctrOvf : (s.takeCommand).ctrOvf = s.ctrOvf := rfl
@[simp] theorem State.takeCommand_port : (s.takeCommand).port = s.port.tail := rfl
@[simp] theorem State.takeCommand_events : (s.takeCommand).events = s.events := rfl
@[simp] theorem State.takeCommand_responses : (s.takeCommand).responses = s.responses := rfl
@[simp] theorem State.takeCommand_requests : (s.takeCommand).requests = s.requests := rfl

/-! `State.presentCommand` -/

@[simp] theorem State.presentCommand_skey (w : Word) : (s.presentCommand w).skey = s.skey := rfl
@[simp] theorem State.presentCommand_snonce (w : Word) : (s.presentCommand w).snonce = s.snonce := rfl
@[simp] theorem State.presentCommand_srounds (w : Word) : (s.presentCommand w).srounds = s.srounds := rfl
@[simp] theorem State.presentCommand_constructed (w : Word) : (s.presentCommand w).constructed = s.constructed := rfl
@[simp] theorem State.presentCommand_key (w : Word) : (s.presentCommand w).key = s.key := rfl
@[simp] theorem State.presentCommand_nonce (w : Word) : (s.presentCommand w).nonce = s.nonce := rfl
@[simp] theorem State.presentCommand_rounds (w : Word) : (s.presentCommand w).rounds = s.rounds := rfl
@[simp] theorem State.presentCommand_counter (w : Word) : (s.presentCommand w).counter = s.counter := rfl
@[simp] theorem State.presentCommand_buf (w : Word) : (s.presentCommand w).buf = s.buf := rfl
@[simp] theorem State.presentCommand_cursor (w : Word) : (s.presentCommand w).cursor = s.cursor := rfl
@[simp] theorem State.presentCommand_wrapped (w : Word) : (s.presentCommand w).wrapped = s.wrapped := rfl
@[simp] theorem State.presentCommand_pending (w : Word) : (s.presentCommand w).pending = s.pending := rfl
@[simp] theorem State.presentCommand_ctrOvf (w : Word) : (s.presentCommand w).ctrOvf = s.ctrOvf := rfl
@[simp] theorem State.presentCommand_port (w : Word) : (s.presentCommand w).port = s.port ++ [w] := rfl
@[simp] theorem State.presentCommand_events (w : Word) : (s.presentCommand w).events = s.events := rfl
@[simp] theorem State.presentCommand_responses (w : Word) : (s.presentCommand w).responses = s.responses := rfl
@[simp] theorem State.presentCommand_requests (w : Word) : (s.presentCommand w).requests = s.requests := rfl

/-! `State.dropEvent` -/

@[simp] theorem State.dropEvent_skey : (s.dropEvent).skey = s.skey := rfl
@[simp] theorem State.dropEvent_snonce : (s.dropEvent).snonce = s.snonce := rfl
@[simp] theorem State.dropEvent_srounds : (s.dropEvent).srounds = s.srounds := rfl
@[simp] theorem State.dropEvent_constructed : (s.dropEvent).constructed = s.constructed := rfl
@[simp] theorem State.dropEvent_key : (s.dropEvent).key = s.key := rfl
@[simp] theorem State.dropEvent_nonce : (s.dropEvent).nonce = s.nonce := rfl
@[simp] theorem State.dropEvent_rounds : (s.dropEvent).rounds = s.rounds := rfl
@[simp] theorem State.dropEvent_counter : (s.dropEvent).counter = s.counter := rfl
@[simp] theorem State.dropEvent_buf : (s.dropEvent).buf = s.buf := rfl
@[simp] theorem State.dropEvent_cursor : (s.dropEvent).cursor = s.cursor := rfl
@[simp] theorem State.dropEvent_wrapped : (s.dropEvent).wrapped = s.wrapped := rfl
@[simp] theorem State.dropEvent_pending : (s.dropEvent).pending = s.pending := rfl
@[simp] theorem State.dropEvent_ctrOvf : (s.dropEvent).ctrOvf = s.ctrOvf := rfl
@[simp] theorem State.dropEvent_port : (s.dropEvent).port = s.port := rfl
@[simp] theorem State.dropEvent_events : (s.dropEvent).events = s.events.tail := rfl
@[simp] theorem State.dropEvent_responses : (s.dropEvent).responses = s.responses := rfl
@[simp] theorem State.dropEvent_requests : (s.dropEvent).requests = s.requests := rfl

/-! `State.refill` -/

@[simp] theorem State.refill_skey : (s.refill).skey = s.skey := rfl
@[simp] theorem State.refill_snonce : (s.refill).snonce = s.snonce := rfl
@[simp] theorem State.refill_srounds : (s.refill).srounds = s.srounds := rfl
@[simp] theorem State.refill_constructed : (s.refill).constructed = s.constructed := rfl
@[simp] theorem State.refill_key : (s.refill).key = s.key := rfl
@[simp] theorem State.refill_nonce : (s.refill).nonce = s.nonce := rfl
@[simp] theorem State.refill_rounds : (s.refill).rounds = s.rounds := rfl
@[simp] theorem State.refill_counter : (s.refill).counter = s.counter + 1 := rfl
@[simp] theorem State.refill_buf : (s.refill).buf = chachaBlock s.key s.nonce s.counter s.rounds := rfl
@[simp] theorem State.refill_cursor : (s.refill).cursor = 0 := rfl
@[simp] theorem State.refill_wrapped : (s.refill).wrapped = wrappedAfter s.wrapped s.counter := rfl
@[simp] theorem State.refill_pending : (s.refill).pending = s.pending := rfl
@[simp] theorem State.refill_ctrOvf : (s.refill).ctrOvf = s.ctrOvf := rfl
@[simp] theorem State.refill_port : (s.refill).port = s.port := rfl
@[simp] theorem State.refill_events : (s.refill).events = s.events := rfl
@[simp] theorem State.refill_responses : (s.refill).responses = s.responses := rfl
@[simp] theorem State.refill_requests : (s.refill).requests = s.requests := rfl

/-! `State.advance` -/

@[simp] theorem State.advance_skey (i : Fin 64) : (s.advance i).skey = s.skey := rfl
@[simp] theorem State.advance_snonce (i : Fin 64) : (s.advance i).snonce = s.snonce := rfl
@[simp] theorem State.advance_srounds (i : Fin 64) : (s.advance i).srounds = s.srounds := rfl
@[simp] theorem State.advance_constructed (i : Fin 64) : (s.advance i).constructed = s.constructed := rfl
@[simp] theorem State.advance_key (i : Fin 64) : (s.advance i).key = s.key := rfl
@[simp] theorem State.advance_nonce (i : Fin 64) : (s.advance i).nonce = s.nonce := rfl
@[simp] theorem State.advance_rounds (i : Fin 64) : (s.advance i).rounds = s.rounds := rfl
@[simp] theorem State.advance_counter (i : Fin 64) : (s.advance i).counter = s.counter := rfl
@[simp] theorem State.advance_buf (i : Fin 64) : (s.advance i).buf = s.buf := rfl
@[simp] theorem State.advance_cursor (i : Fin 64) : (s.advance i).cursor = i.succ := rfl
@[simp] theorem State.advance_wrapped (i : Fin 64) : (s.advance i).wrapped = s.wrapped := rfl
@[simp] theorem State.advance_pending (i : Fin 64) : (s.advance i).pending = s.pending := rfl
@[simp] theorem State.advance_ctrOvf (i : Fin 64) : (s.advance i).ctrOvf = s.ctrOvf := rfl
@[simp] theorem State.advance_port (i : Fin 64) : (s.advance i).port = s.port := rfl
@[simp] theorem State.advance_events (i : Fin 64) : (s.advance i).events = s.events := rfl
@[simp] theorem State.advance_responses (i : Fin 64) : (s.advance i).responses = s.responses := rfl
@[simp] theorem State.advance_requests (i : Fin 64) : (s.advance i).requests = s.requests := rfl

end Sys2Proof.Machine
end

