-- ==== Sys2Proof/Laws/Ops.lean ====
section
/-! SUPPORT. What each shared operation and each meaning can answer, said once: if it answers `next t`, then one of
these cases holds. Later proofs cite these lemmas and do not unfold the meanings. -/

namespace Sys2Proof.Machine

variable {s t : State}

theorem succeed_eq_next_iff {d : Word} : succeed d s = .next t ↔ t = s.respond .ok d := by
  simp [succeed, eq_comm]

theorem raise_eq_next_iff {c : StatusCode} : raise c s = .next t ↔ t = s.respond c 0 := by
  simp [raise, eq_comm]

theorem keyIndex_of_lt {idx : Byte} (h : idx.toNat < 32) : keyIndex idx = some ⟨idx.toNat, h⟩ := dif_pos h

theorem keyIndex_of_not_lt {idx : Byte} (h : ¬ idx.toNat < 32) : keyIndex idx = none := dif_neg h

theorem nonceIndex_of_lt {idx : Byte} (h : idx.toNat < 12) : nonceIndex idx = some ⟨idx.toNat, h⟩ := dif_pos h

theorem nonceIndex_of_not_lt {idx : Byte} (h : ¬ idx.toNat < 12) : nonceIndex idx = none := dif_neg h

theorem legalRounds_iff {r : Byte} : legalRounds r = true ↔ r ≠ 0 ∧ r.toNat % 2 = 0 := by
  simp [legalRounds]

/-- A legal round count in the words of 10_state.md R25. -/
theorem legalRounds_bounds {r : Byte} (h : legalRounds r = true) :
    r.toNat % 2 = 0 ∧ 2 ≤ r.toNat ∧ r.toNat ≤ 254 := by
  obtain ⟨h0, h2⟩ := legalRounds_iff.mp h
  have : r.toNat ≠ 0 := fun hr => h0 (BitVec.eq_of_toNat_eq (by simpa using hr))
  have := r.isLt
  omega

theorem execWkey_next {idx imm : Byte} (h : execWkey idx imm s = .next t) :
    (∃ hi : idx.toNat < 32, t = (s.writeSkey ⟨idx.toNat, hi⟩ imm).respond .ok 0) ∨
    (¬ idx.toNat < 32 ∧ t = s.respond .illegalCommand 0) := by
  by_cases hi : idx.toNat < 32
  · rw [execWkey, keyIndex_of_lt hi] at h
    exact .inl ⟨hi, succeed_eq_next_iff.mp h⟩
  · rw [execWkey, keyIndex_of_not_lt hi] at h
    exact .inr ⟨hi, raise_eq_next_iff.mp h⟩

theorem execWnonce_next {idx imm : Byte} (h : execWnonce idx imm s = .next t) :
    (∃ hi : idx.toNat < 12, t = (s.writeSnonce ⟨idx.toNat, hi⟩ imm).respond .ok 0) ∨
    (¬ idx.toNat < 12 ∧ t = s.respond .illegalCommand 0) := by
  by_cases hi : idx.toNat < 12
  · rw [execWnonce, nonceIndex_of_lt hi] at h
    exact .inl ⟨hi, succeed_eq_next_iff.mp h⟩
  · rw [execWnonce, nonceIndex_of_not_lt hi] at h
    exact .inr ⟨hi, raise_eq_next_iff.mp h⟩

theorem execWrounds_next {imm : Byte} (h : execWrounds imm s = .next t) :
    t = (s.writeSrounds imm).respond .ok 0 := succeed_eq_next_iff.mp h

theorem execInitk_next (h : execInitk s = .next t) :
    (legalRounds s.srounds = true ∧ t = (s.construct s.skey s.snonce).respond .ok 0) ∨
    (legalRounds s.srounds = false ∧ t = s.respond .configError 0) := by
  cases hl : legalRounds s.srounds with
  | true => rw [execInitk, if_pos hl] at h; exact .inl ⟨rfl, succeed_eq_next_iff.mp h⟩
  | false => rw [execInitk, if_neg (by simp [hl])] at h; exact .inr ⟨rfl, raise_eq_next_iff.mp h⟩

theorem execInite_next (h : execInite s = .next t) :
    (legalRounds s.srounds = true ∧ t = s.requestEntropy) ∨
    (legalRounds s.srounds = false ∧ t = s.respond .configError 0) := by
  cases hl : legalRounds s.srounds with
  | true => rw [execInite, if_pos hl] at h; exact .inl ⟨rfl, by simpa [eq_comm] using h⟩
  | false => rw [execInite, if_neg (by simp [hl])] at h; exact .inr ⟨rfl, raise_eq_next_iff.mp h⟩

theorem serveByte_next {i : Fin 64} (h : serveByte i s = .next t) :
    t = (s.advance i).respond .ok (zext32 s.buf[i]) := succeed_eq_next_iff.mp h

/-- The four ways of `NEXTB` (43_keystream_cursor.md R150, R152). -/
theorem execNextb_next (h : execNextb s = .next t) :
    (s.constructed = false ∧ t = s.respond .notConstructed 0) ∨
    (s.constructed = true ∧ ∃ hc : s.cursor.val < 64,
      t = (s.advance ⟨s.cursor.val, hc⟩).respond .ok (zext32 s.buf[s.cursor.val])) ∨
    (s.constructed = true ∧ s.cursor = 64 ∧ s.wrapped = true ∧ s.ctrOvf = .halt ∧
      t = s.respond .counterExhausted 0) ∨
    (s.constructed = true ∧ s.cursor = 64 ∧ ¬ (s.wrapped = true ∧ s.ctrOvf = .halt) ∧
      t = (s.refill.advance 0).respond .ok (zext32 s.refill.buf[0])) := by
  unfold execNextb at h
  split at h
  case isTrue hc => exact .inl ⟨hc, raise_eq_next_iff.mp h⟩
  case isFalse hc =>
    have hc : s.constructed = true := by simpa using hc
    split at h
    case isTrue hlt => exact .inr (.inl ⟨hc, hlt, serveByte_next h⟩)
    case isFalse hlt =>
      have h64 : s.cursor = 64 := Fin.ext (by have := s.cursor.isLt; simp; omega)
      split at h
      case isTrue hw => exact .inr (.inr (.inl ⟨hc, h64, hw.1, hw.2, raise_eq_next_iff.mp h⟩))
      case isFalse hw => exact .inr (.inr (.inr ⟨hc, h64, hw, serveByte_next h⟩))

theorem execRdstat_next (h : execRdstat s = .next t) : t = s.respond .ok s.statusWord := succeed_eq_next_iff.mp h

theorem execRdctr_next (h : execRdctr s = .next t) : t = s.respond .ok s.counter := succeed_eq_next_iff.mp h

theorem execZero_next (h : execZero s = .next t) : t = s.clear.respond .ok 0 := succeed_eq_next_iff.mp h

theorem awaits_iff {n : Nat} : s.awaits n = true ↔ s.pending = .waitEntropy ∧ n = s.requests.length := by
  simp [State.awaits]

@[simp] theorem awaits_dropEvent (s : State) (n : Nat) : s.dropEvent.awaits n = s.awaits n := rfl

theorem receiveAnswer_of_not_awaits {n : Nat} (h : s.awaits n = false) (a : EntropyAnswer) :
    s.receiveAnswer n a = s := if_neg (by simp [h])

/-- What an entropy answer does to the core (44_construction.md R185, R186, 60_exceptions.md R218,
70_reset_and_hazards.md R241). -/
theorem receiveAnswer_cases (s : State) (n : Nat) (a : EntropyAnswer) :
    (s.awaits n = false ∧ s.receiveAnswer n a = s) ∨
    (s.awaits n = true ∧ ∃ e, a = .ok e ∧
      s.receiveAnswer n a = ((s.construct (entropyKey e) (entropyNonce e)).endWait).respond .ok 0) ∨
    (s.awaits n = true ∧ (a = .fail ∨ ∃ m, a = .short m) ∧
      s.receiveAnswer n a = s.endWait.respond .entropyError 0) := by
  cases hw : s.awaits n with
  | false => exact .inl ⟨rfl, receiveAnswer_of_not_awaits hw a⟩
  | true => cases a <;> simp [State.receiveAnswer, State.completeEntropy, State.failEntropy, hw]

/-- The frame of every command on what no command writes: the command port, the outside events, the parameter. -/
theorem exec_keeps_inputs {i : Instr} (h : exec i s = .next t) :
    t.port = s.port ∧ t.events = s.events ∧ t.ctrOvf = s.ctrOvf := by
  cases i with
  | wkey idx imm => rcases execWkey_next h with ⟨_, rfl⟩ | ⟨_, rfl⟩ <;> simp
  | wnonce idx imm => rcases execWnonce_next h with ⟨_, rfl⟩ | ⟨_, rfl⟩ <;> simp
  | wrounds imm => rcases execWrounds_next h with rfl; simp
  | initk => rcases execInitk_next h with ⟨_, rfl⟩ | ⟨_, rfl⟩ <;> simp
  | inite => rcases execInite_next h with ⟨_, rfl⟩ | ⟨_, rfl⟩ <;> simp
  | nextb =>
    rcases execNextb_next h with ⟨_, rfl⟩ | ⟨_, _, rfl⟩ | ⟨_, _, _, _, rfl⟩ | ⟨_, _, _, rfl⟩ <;> simp
  | rdstat => rcases execRdstat_next h with rfl; simp
  | rdctr => rcases execRdctr_next h with rfl; simp
  | zero => rcases execZero_next h with rfl; simp

/-- The frame of an entropy answer on what it never writes. -/
theorem receiveAnswer_keeps_inputs (s : State) (n : Nat) (a : EntropyAnswer) :
    (s.receiveAnswer n a).port = s.port ∧ (s.receiveAnswer n a).events = s.events ∧
      (s.receiveAnswer n a).ctrOvf = s.ctrOvf := by
  rcases receiveAnswer_cases s n a with ⟨_, h⟩ | ⟨_, e, _, h⟩ | ⟨_, _, h⟩ <;> simp [h]

/-- Only an `INITE` that begins to wait raises a request, and it raises one. -/
theorem exec_requests {i : Instr} (h : exec i s = .next t) (hp : s.pending = .idle) :
    (t.pending = .idle ∧ t.requests = s.requests) ∨ (t.pending = .waitEntropy ∧ t.requests = s.requests ++ [⟨44⟩]) := by
  cases i with
  | wkey idx imm => rcases execWkey_next h with ⟨_, rfl⟩ | ⟨_, rfl⟩ <;> simp [hp]
  | wnonce idx imm => rcases execWnonce_next h with ⟨_, rfl⟩ | ⟨_, rfl⟩ <;> simp [hp]
  | wrounds imm => rcases execWrounds_next h with rfl; simp [hp]
  | initk => rcases execInitk_next h with ⟨_, rfl⟩ | ⟨_, rfl⟩ <;> simp [hp]
  | inite => rcases execInite_next h with ⟨_, rfl⟩ | ⟨_, rfl⟩ <;> simp [hp]
  | nextb =>
    rcases execNextb_next h with ⟨_, rfl⟩ | ⟨_, _, rfl⟩ | ⟨_, _, _, _, rfl⟩ | ⟨_, _, _, rfl⟩ <;> simp [hp]
  | rdstat => rcases execRdstat_next h with rfl; simp [hp]
  | rdctr => rcases execRdctr_next h with rfl; simp [hp]
  | zero => rcases execZero_next h with rfl; simp

/-- An entropy answer raises no request and begins no wait. -/
theorem receiveAnswer_requests (s : State) (n : Nat) (a : EntropyAnswer) :
    (s.receiveAnswer n a).requests = s.requests ∧
      ((s.receiveAnswer n a).pending = .waitEntropy → s.pending = .waitEntropy) := by
  rcases receiveAnswer_cases s n a with ⟨_, h⟩ | ⟨_, e, _, h⟩ | ⟨_, _, h⟩ <;> simp [h]

end Sys2Proof.Machine
end

