-- ==== Sys2Proof/Laws/PerInstr.lean ====
section
/-! SUPPORT. Families of statements made per instruction, one lemma per constructor. -/

namespace Sys2Proof.Laws

/-- The word of a command has its opcode in `OP` and zero in `RSV` (30_encoding.md R70, R71). -/
def FixedFields.Statement (i : Instr) : Prop :=
  opField (encode i) = opField (encodingRow i).pattern ∧ rsvField (encode i) = 0

theorem FixedFields.wkey (idx imm : Byte) : FixedFields.Statement (.wkey idx imm) :=
  ⟨opField_commandWord _ _ _, rsvField_commandWord (by decide) _ _⟩

theorem FixedFields.wnonce (idx imm : Byte) : FixedFields.Statement (.wnonce idx imm) :=
  ⟨opField_commandWord _ _ _, rsvField_commandWord (by decide) _ _⟩

theorem FixedFields.wrounds (imm : Byte) : FixedFields.Statement (.wrounds imm) :=
  ⟨opField_commandWord _ _ _, rsvField_commandWord (by decide) _ _⟩

theorem FixedFields.initk : FixedFields.Statement .initk := ⟨by decide, by decide⟩

theorem FixedFields.inite : FixedFields.Statement .inite := ⟨by decide, by decide⟩

theorem FixedFields.nextb : FixedFields.Statement .nextb := ⟨by decide, by decide⟩

theorem FixedFields.rdstat : FixedFields.Statement .rdstat := ⟨by decide, by decide⟩

theorem FixedFields.rdctr : FixedFields.Statement .rdctr := ⟨by decide, by decide⟩

theorem FixedFields.zero : FixedFields.Statement .zero := ⟨by decide, by decide⟩

end Sys2Proof.Laws
end

