-- ==== Sys2Proof/Laws/Step.lean ====
section
/-! SUPPORT. Who moves next, and what a step can do, said once. -/

namespace Sys2Proof.Machine

variable {s t : State}

theorem nextMove_accept_iff {w : Word} :
    s.nextMove = .accept w ↔ s.pending = .idle ∧ ∃ rest, s.port = w :: rest := by
  unfold State.nextMove
  split <;> simp_all [outsideMove] <;> split <;> simp

theorem nextMove_arrive_iff {e : Event} :
    s.nextMove = .arrive e ↔ ¬ (s.pending = .idle ∧ s.port ≠ []) ∧ ∃ es, s.events = e :: es := by
  unfold State.nextMove
  split <;> simp_all [outsideMove] <;> split <;> simp_all

theorem nextMove_wait_iff :
    s.nextMove = .wait ↔ ¬ (s.pending = .idle ∧ s.port ≠ []) ∧ s.events = [] := by
  unfold State.nextMove
  split <;> simp_all [outsideMove] <;> split <;> simp_all

theorem step_of_accept {w : Word} (h : s.nextMove = .accept w) : step s = acceptCommand w s.takeCommand := by
  simp [step, transition, h]

theorem step_of_arrive {e : Event} (h : s.nextMove = .arrive e) : step s = .next (s.dropEvent.arrive e) := by
  simp [step, transition, h]

theorem step_of_wait (h : s.nextMove = .wait) : step s = .next s := by
  simp [step, transition, h]

theorem acceptCommand_of_ok {w : Word} {i : Instr} (h : decode w = .ok i) (s : State) :
    acceptCommand w s = exec i s := by
  simp [acceptCommand, h]

theorem acceptCommand_of_error {w : Word} {e : Illegal} (h : decode w = .error e) (s : State) :
    acceptCommand w s = .next (s.respond .illegalCommand 0) := by
  simp [acceptCommand, h, raise]

theorem acceptCommand_next {w : Word} (h : acceptCommand w s = .next t) :
    (∃ i, decode w = .ok i ∧ exec i s = .next t) ∨
    (∃ e, decode w = .error e ∧ t = s.respond .illegalCommand 0) := by
  cases hd : decode w with
  | ok i => exact .inl ⟨i, rfl, by rwa [acceptCommand_of_ok hd] at h⟩
  | error e =>
    rw [acceptCommand_of_error hd] at h
    exact .inr ⟨e, rfl, by simpa [eq_comm] using h⟩

/-- The three things a step can be. -/
theorem step_next (h : step s = .next t) :
    (∃ w, s.nextMove = .accept w ∧ acceptCommand w s.takeCommand = .next t) ∨
    (∃ e, s.nextMove = .arrive e ∧ t = s.dropEvent.arrive e) ∨
    (s.nextMove = .wait ∧ t = s) := by
  cases hm : s.nextMove with
  | accept w => exact .inl ⟨w, rfl, by rwa [step_of_accept hm] at h⟩
  | arrive e =>
    rw [step_of_arrive hm] at h
    exact .inr (.inl ⟨e, rfl, by simpa [eq_comm] using h⟩)
  | wait =>
    rw [step_of_wait hm] at h
    exact .inr (.inr ⟨rfl, by simpa [eq_comm] using h⟩)

/-- A wait begins only in a step that raises a request, so each wait has a request number of its own. -/
theorem step_requests (h : step s = .next t) :
    (t.requests = s.requests ∧ (t.pending = .waitEntropy → s.pending = .waitEntropy)) ∨
    t.requests = s.requests ++ [⟨44⟩] := by
  rcases step_next h with ⟨w, hm, ha⟩ | ⟨e, hm, rfl⟩ | ⟨hm, rfl⟩
  · obtain ⟨hp, -⟩ := nextMove_accept_iff.mp hm
    rcases acceptCommand_next ha with ⟨i, _, hi⟩ | ⟨e, _, rfl⟩
    · rcases exec_requests hi (by simpa using hp) with ⟨h1, h2⟩ | ⟨_, h2⟩
      · exact .inl (by simp_all)
      · exact .inr (by simpa using h2)
    · exact .inl (by simp)
  · left
    cases e with
    | answer n a => exact receiveAnswer_requests s.dropEvent n a
    | _ => simp [State.arrive]
  · exact .inl (by simp)

end Sys2Proof.Machine
end

