-- ==== Sys2Proof/Laws/Runs.lean ====
section
/-! SUPPORT. Equal parts of states, and runs of steps. -/

namespace Sys2Proof.Machine

variable {s t u : State}

theorem SameGenerator.refl (s : State) : SameGenerator s s := by constructor <;> rfl

theorem SameGenerator.trans (h : SameGenerator s t) (h' : SameGenerator t u) : SameGenerator s u where
  constructed := h'.constructed.trans h.constructed
  key := h'.key.trans h.key
  nonce := h'.nonce.trans h.nonce
  rounds := h'.rounds.trans h.rounds
  counter := h'.counter.trans h.counter
  buf := h'.buf.trans h.buf
  cursor := h'.cursor.trans h.cursor
  wrapped := h'.wrapped.trans h.wrapped

theorem SameRecord.refl (s : State) : SameRecord s s where
  toSameGenerator := .refl s
  skey := rfl
  snonce := rfl
  srounds := rfl
  pending := rfl

theorem SameRecord.trans (h : SameRecord s t) (h' : SameRecord t u) : SameRecord s u where
  toSameGenerator := h.toSameGenerator.trans h'.toSameGenerator
  skey := h'.skey.trans h.skey
  snonce := h'.snonce.trans h.snonce
  srounds := h'.srounds.trans h.srounds
  pending := h'.pending.trans h.pending

/-- A run of a given length ends in one state only. -/
theorem Steps.unique {n : Nat} (h : Steps n s t) (h' : Steps n s u) : t = u := by
  induction n generalizing s with
  | zero => exact h.symm.trans h'
  | succ n ih =>
    obtain ⟨a, ha, h⟩ := h
    obtain ⟨b, hb, h'⟩ := h'
    rw [ha] at hb
    cases hb
    exact ih h h'

/-- An accepted word keeps what no command writes. -/
theorem acceptCommand_keeps_inputs {w : Word} (h : acceptCommand w s = .next t) :
    t.port = s.port ∧ t.events = s.events ∧ t.ctrOvf = s.ctrOvf := by
  rcases acceptCommand_next h with ⟨i, _, hi⟩ | ⟨e, _, rfl⟩
  · exact exec_keeps_inputs hi
  · simp

/-- The bytes served from the first step on. -/
theorem bytesServed_succ {n : Nat} (h : step s = .next u) :
    bytesServed (n + 1) s = (servedByte s u).toList ++ bytesServed n u := by
  rw [bytesServed, h]

/-- The refills from the first step on. -/
theorem refillsDone_succ {n : Nat} (h : step s = .next u) :
    refillsDone (n + 1) s = (if s.cursor = 64 ∧ (servedByte s u).isSome then 1 else 0) + refillsDone n u := by
  rw [refillsDone, h]

end Sys2Proof.Machine
end

