-- ==== Sys2Proof/Tests/Slice0.lean ====
section
/-! SUPPORT. Tests: the well-formedness smoke, decoding by words written out from 30_encoding.md, vectors of
95_test_vectors.md, one step per command, and a witness for the hypotheses of every statement that has some. Every
expected value comes from the spec. -/

namespace Sys2Proof.Tests

open Sys2Proof.Machine

/-! ### States to test on -/

/-- The reset state of an instance with `CTR_OVF = WRAP`. -/
def idle : State := { State.reset with ctrOvf := .wrap }

/-- The §6 key of 95_test_vectors.md. -/
def key6 : Vector Byte 32 :=
  #v[0x00, 0x01, 0x02, 0x03, 0x04, 0x05, 0x06, 0x07, 0x08, 0x09, 0x0a, 0x0b, 0x0c, 0x0d, 0x0e, 0x0f,
     0x10, 0x11, 0x12, 0x13, 0x14, 0x15, 0x16, 0x17, 0x18, 0x19, 0x1a, 0x1b, 0x1c, 0x1d, 0x1e, 0x1f]

/-- The §6 nonce of 95_test_vectors.md. -/
def nonce6 : Vector Byte 12 := #v[0, 0, 0, 0x09, 0, 0, 0, 0x4a, 0, 0, 0, 0]

/-- A fresh generator on the §6 input with round count `r`. -/
def gen (r : Byte) : State :=
  { idle with
    skey := key6, snonce := nonce6, srounds := r, constructed := true, key := key6, nonce := nonce6, rounds := r,
    counter := 1 }

/-- An `INITE` waits for the answer to request 1. -/
def waiting : State := { idle with pending := .waitEntropy, requests := [⟨44⟩] }

/-- A wrapped generator under `HALT` with its buffer used up. -/
def exhausted : State := { gen 20 with wrapped := true, counter := 0, ctrOvf := .halt }

/-- The state a command or a step ends in. -/
def after : Result → Option State
  | .next t => some t
  | .fault _ => none
  | .refused _ => none

/-- The last response in it. -/
def answer (r : Result) : Option Response := (after r).bind fun t => t.responses.getLast?

/-! ### Well-formedness: each check refuses an ill-formed term -/

theorem test_wellFormed_wkey : Instr.wellFormed (.wkey 31 0xff) = true ∧ Instr.wellFormed (.wkey 32 0) = false := by
  decide

theorem test_wellFormed_wnonce :
    Instr.wellFormed (.wnonce 11 0xff) = true ∧ Instr.wellFormed (.wnonce 12 0) = false := by decide

/-! ### Decoding (30_encoding.md R70, R73; 95_test_vectors.md §2.6) -/

theorem test_decode_wkey : decode 0b0001_000000000000_00011111_00011111 = .ok (.wkey 31 0x1f) := by decide

theorem test_decode_wnonce : decode 0b0010_000000000000_00000111_01001010 = .ok (.wnonce 7 0x4a) := by decide

theorem test_decode_wrounds : decode 0b0011_000000000000_00000000_00010100 = .ok (.wrounds 20) := by decide

theorem test_decode_bare :
    decode 0b0100_000000000000_00000000_00000000 = .ok .initk ∧
    decode 0b0101_000000000000_00000000_00000000 = .ok .inite ∧
    decode 0b0110_000000000000_00000000_00000000 = .ok .nextb ∧
    decode 0b0111_000000000000_00000000_00000000 = .ok .rdstat ∧
    decode 0b1000_000000000000_00000000_00000000 = .ok .rdctr ∧
    decode 0b1001_000000000000_00000000_00000000 = .ok .zero := by decide

theorem test_decode_illegal :
    decode 0x10002000 = .error .indexOutOfRange ∧ decode 0x1000ff00 = .error .indexOutOfRange ∧
    decode 0x10010000 = .error .reservedBits ∧ decode 0x20000c00 = .error .indexOutOfRange ∧
    decode 0x20000f00 = .error .indexOutOfRange ∧ decode 0x30000114 = .error .unusedOperand ∧
    decode 0x40000001 = .error .unusedOperand ∧ decode 0x60000100 = .error .unusedOperand ∧
    decode 0x60010000 = .error .reservedBits ∧ decode 0x00000000 = .error .reservedOpcode ∧
    decode 0xa0000000 = .error .reservedOpcode ∧ decode 0xf0000000 = .error .reservedOpcode := by decide

/-- R90's examples of assembled words. -/
theorem test_encode_examples :
    encode (.wkey 5 0x3c) = 0x1000053c ∧ encode (.wnonce 7 0x4a) = 0x2000074a ∧ encode (.wrounds 20) = 0x30000014 := by
  decide

theorem test_decodeTableWord :
    decodeTableWord 32 0x1000053c = some (.wkey 5 0x3c) ∧ decodeTableWord 32 0xa0000000 = none := by decide

theorem test_withFetchWord_runs :
    answer (step (State.reset.withFetchWord 32 0x60000000)) = some ⟨0x4, 0⟩ := by decide

/-! ### The assembler (R90, R91) -/

theorem test_assemble_line : assembleLine "wkey 5, 0x3c ; a key byte".toList = .ok [0x1000053c] := by decide

theorem test_assemble_rejects :
    assembleLine "wrounds 7".toList = .error .illegalRounds ∧
    assembleLine "wkey 32, 0".toList = .error .operandRange := by decide

theorem test_assemble_text :
    assembleText ["fromentropy 20".toList, ".word 0xa0000000".toList, "fill 2".toList] =
      .ok [0x30000014, 0x50000000, 0xa0000000, 0x60000000, 0x60000000] := by decide

/-- P1 of 95_test_vectors.md: `fromkey` is 46 commands, the last two `wrounds 20` and `initk`. -/
theorem test_assemble_fromkey :
    (assemble .fromkey ((List.range 32) ++ [0, 0, 0, 9, 0, 0, 0, 0x4a, 0, 0, 0, 0] ++ [20])).map
      (fun ws => (ws.length, ws.drop 44, ws[31]?, ws[35]?)) =
    .ok (46, [0x30000014, 0x40000000], some 0x10001f1f, some 0x20000309) := by decide

/-! ### The block function (95_test_vectors.md §2.1 to §2.5) -/

theorem test_rotl :
    rotl 0x80000001 16 = 0x00018000 ∧ rotl 0x80000001 7 = 0x000000c0 ∧ rotl 0x12345678 8 = 0x34567812 ∧
    rotl 0x12345678 12 = 0x45678123 := by decide

theorem test_le32 : le32 0x10 0xf1 0xe7 0xe4 = 0xe4e7f110 ∧ leBytes 0xe4e7f110 = #v[0x10, 0xf1, 0xe7, 0xe4] := by decide

/-- V-INIT-1. -/
def vInit1 : Words :=
  #v[0x61707865, 0x3320646e, 0x79622d32, 0x6b206574, 0x03020100, 0x07060504, 0x0b0a0908, 0x0f0e0d0c,
     0x13121110, 0x17161514, 0x1b1a1918, 0x1f1e1d1c, 0x00000001, 0x09000000, 0x4a000000, 0x00000000]

theorem test_init_vector : initState key6 nonce6 1 = vInit1 := by decide

/-- V-QR-4: the quarter round on slots 2, 7, 8, 13. -/
theorem test_quarter_round_vector :
    quarterRound #v[0x879531e0, 0xc5ecf37d, 0x516461b1, 0xc9a62f8a, 0x44c20ef3, 0x3390af7f, 0xd9fc690b, 0x2a5f714c,
      0x53372767, 0xb00a5631, 0x974c541a, 0x359e9963, 0x5c971061, 0x3d631689, 0x2098d9d6, 0x91dbd320] 2 7 8 13 =
    #v[0x879531e0, 0xc5ecf37d, 0xbdb886dc, 0xc9a62f8a, 0x44c20ef3, 0x3390af7f, 0xd9fc690b, 0xcfacafd2,
      0xe46bea80, 0xb00a5631, 0x974c541a, 0x359e9963, 0x5c971061, 0xccc07c79, 0x2098d9d6, 0x91dbd320] := by decide

/-- W1 of the source (V-QR-1), the corner V-QR-3 and V-QR-5. -/
theorem test_quarter_round_corners :
    (quarterRound #v[0x11111111, 0x01020304, 0x9b8d6f43, 0x01234567, 0, 0, 0, 0, 0, 0, 0, 0, 0, 0, 0, 0] 0 1 2 3).take 4 =
      #v[0xea2a92f4, 0xcb1cf8ce, 0x4581472e, 0x5881c4bb] ∧
    (quarterRound #v[0xffffffff, 0xffffffff, 0xffffffff, 0xffffffff, 0, 0, 0, 0, 0, 0, 0, 0, 0, 0, 0, 0] 0 1 2 3).take 4 =
      #v[0xf0000ffd, 0x88790878, 0x0110fdef, 0x010ffdf0] ∧
    (quarterRound #v[1, 0, 0, 0, 0, 0, 0, 0, 0, 0, 0, 0, 0, 0, 0, 0] 0 1 2 3).take 4 =
      #v[0x10000001, 0x80808808, 0x01010110, 0x01000110] := by decide

/-- V-COL-1. -/
theorem test_column_round_vector :
    columnRound vInit1 =
      #v[0xabbaa25c, 0x1efa51ea, 0x7354fbdf, 0x83d2dc69, 0x3a465196, 0x1c7e64f6, 0xb12fb628, 0xf05b6976,
         0x6b3ca454, 0x08eb14b1, 0xbf8a9ac9, 0xe444df3b, 0xdec62ed2, 0x8862cc77, 0x6e35b345, 0x52a647f1] := by decide

/-- V-DR-1. -/
theorem test_double_round_vector :
    permute vInit1 2 =
      #v[0xcd52e917, 0x85ab03b4, 0xb3457395, 0xf96de7dd, 0xc4b7cd22, 0x5c2e187a, 0xc95eb461, 0x316c801a,
         0x7bf7d740, 0x7eddd644, 0xf1a1bdf5, 0x761246ca, 0x6b0d58a3, 0x6798471a, 0xd737f167, 0xf173888d] := by decide

/-- V-BLK-1: the first block of the §6 input with 20 rounds. -/
theorem test_block_vector_20_rounds :
    chachaBlock key6 nonce6 1 20 =
      #v[0x10, 0xf1, 0xe7, 0xe4, 0xd1, 0x3b, 0x59, 0x15, 0x50, 0x0f, 0xdd, 0x1f, 0xa3, 0x20, 0x71, 0xc4,
         0xc7, 0xd1, 0xf4, 0xc7, 0x33, 0xc0, 0x68, 0x03, 0x04, 0x22, 0xaa, 0x9a, 0xc3, 0xd4, 0x6c, 0x4e,
         0xd2, 0x82, 0x64, 0x46, 0x07, 0x9f, 0xaa, 0x09, 0x14, 0xc2, 0xd7, 0x05, 0xd9, 0x8b, 0x02, 0xa2,
         0xb5, 0x12, 0x9c, 0xd1, 0xde, 0x16, 0x4e, 0xb9, 0xcb, 0xd0, 0x83, 0xe8, 0xa2, 0x50, 0x3c, 0x4e] := by decide +kernel

/-- V-BLK-2RND: two rounds. -/
theorem test_block_vector_2_rounds :
    chachaBlock key6 nonce6 1 2 =
      #v[0x7c, 0x61, 0xc3, 0x2e, 0x22, 0x68, 0xcb, 0xb8, 0xc7, 0xa0, 0xa7, 0x2c, 0x51, 0x4d, 0x8e, 0x64,
         0x22, 0xce, 0xb9, 0xc7, 0x7e, 0x1d, 0x34, 0x63, 0x69, 0xbd, 0x68, 0xd4, 0x26, 0x8d, 0x7a, 0x40,
         0x50, 0xe8, 0x09, 0x8f, 0x58, 0xeb, 0xf3, 0x95, 0x0d, 0xd7, 0xbb, 0x0c, 0xe6, 0x63, 0x30, 0x95,
         0xa4, 0x58, 0x0d, 0x6b, 0x1a, 0x47, 0x98, 0x70, 0x67, 0xf1, 0x37, 0x21, 0x8d, 0x88, 0x73, 0xf1] := by decide

/-! ### One step per command (95_test_vectors.md §2.7 and §3) -/

/-- R170's example. -/
theorem test_wkey_sets_last_byte :
    (after (exec (.wkey 31 0x1f) idle)).map (fun t => (t.skey[31], t.skey[30], t.key[31])) = some (0x1f, 0, 0) := by decide

/-- V-C11, the staging hazard: the generator keeps its key. -/
theorem test_wkey_keeps_generator_key :
    (after (exec (.wkey 0 0xff) (gen 20))).map (fun t => (t.skey[0], t.key[0])) = some (0xff, 0x00) := by decide

/-- R172's example. -/
theorem test_wnonce_sets_byte_7 :
    (after (exec (.wnonce 7 0x4a) idle)).map (fun t => (t.snonce[7], t.snonce[11])) = some (0x4a, 0) := by decide

/-- R172: index 12 is illegal. -/
theorem test_wnonce_index_12 : answer (exec (.wnonce 12 0) idle) = some ⟨0x1, 0⟩ := by decide

/-- V-C8, first command: an odd count is stored. -/
theorem test_wrounds_stores_odd :
    (after (exec (.wrounds 7) idle)).map (fun t => (t.srounds, t.rounds)) = some (7, 0) := by decide

/-- V-C8, second command. -/
theorem test_initk_odd_rounds :
    answer (exec .initk { idle with srounds := 7 }) = some ⟨0x2, 0⟩ ∧
    (after (exec .initk { idle with srounds := 7 })).map (fun t => t.constructed) = some false := by decide

/-- V-C10. -/
theorem test_initk_after_reset :
    (after (exec .initk idle)).map (fun t => (t.constructed, t.rounds, t.counter, t.cursor)) =
      some (true, 20, 1, 64) := by decide

/-- V-C9: no entropy request. V-INITE-3: the issue step leaves the command outstanding. -/
theorem test_inite_issue :
    (after (exec .inite { idle with srounds := 0 })).map (fun t => (t.requests, t.pending)) =
      some ([], Pending.idle) ∧
    (after (exec .inite idle)).map (fun t => (t.requests, t.pending, t.responses)) =
      some ([⟨44⟩], Pending.waitEntropy, []) := by decide

/-- The §6 key and nonce as 44 entropy bytes (V-INITE-1). -/
def entropy6 : Vector Byte 44 :=
  #v[0x00, 0x01, 0x02, 0x03, 0x04, 0x05, 0x06, 0x07, 0x08, 0x09, 0x0a, 0x0b, 0x0c, 0x0d, 0x0e, 0x0f,
     0x10, 0x11, 0x12, 0x13, 0x14, 0x15, 0x16, 0x17, 0x18, 0x19, 0x1a, 0x1b, 0x1c, 0x1d, 0x1e, 0x1f,
     0, 0, 0, 0x09, 0, 0, 0, 0x4a, 0, 0, 0, 0]

/-- V-INITE-1 and V-INITE-2. -/
theorem test_inite_completion :
    (after (step { waiting with events := [.answer 1 (.ok entropy6)] })).map
      (fun t => (t.key, t.nonce, t.skey[1], t.rounds, t.counter, t.pending)) =
    some (key6, nonce6, 0, 20, 1, Pending.idle) ∧
    (after (step { gen 20 with pending := .waitEntropy, requests := [⟨44⟩], events := [.answer 1 .fail] })).map
      (fun t => (t.responses, t.constructed, t.pending)) = some ([⟨0x3, 0⟩], true, Pending.idle) :=
  ⟨by decide, by decide⟩

/-- V-BLK-2RND byte 0 through the first `NEXTB` (as V-C2); V-C3, the last byte of a buffer, with no refill; V-C5, the
refill that wraps. -/
theorem test_nextb_serves :
    (after (exec .nextb (gen 2))).map (fun t => (t.responses, t.counter, t.cursor, t.wrapped)) =
      some ([⟨0x0, 0x7c⟩], 2, 1, false) ∧
    (after (exec .nextb { gen 20 with counter := 2, cursor := 63, buf := (Vector.replicate 64 0).set 63 0x4e })).map
      (fun t => (t.responses, t.counter, t.cursor)) = some ([⟨0x0, 0x4e⟩], 2, 64) ∧
    (after (exec .nextb { gen 20 with counter := 0xffffffff })).map (fun t => (t.counter, t.cursor, t.wrapped)) =
      some (0, 1, true) := by decide

/-- V-C1; and V-C7, exhausted under `HALT`, with nothing changed. -/
theorem test_nextb_errors :
    answer (exec .nextb idle) = some ⟨0x4, 0⟩ ∧
    (after (exec .nextb exhausted)).map (fun t => (t.responses, t.counter, t.cursor)) =
      some ([⟨0x5, 0⟩], 0, 64) := by decide

/-- V-C13, and P5 under `HALT`: `rdstat` on the exhausted generator. -/
theorem test_rdstat :
    answer (exec .rdstat (gen 20)) = some ⟨0x0, 0x14144001⟩ ∧
    answer (exec .rdstat exhausted) = some ⟨0x0, 0x14144007⟩ := by decide

/-- V-C14 and the reset value under `WRAP`. -/
theorem test_rdstat_at_reset :
    answer (exec .rdstat { idle with ctrOvf := .halt }) = some ⟨0x0, 0x14004004⟩ ∧
    answer (exec .rdstat idle) = some ⟨0x0, 0x14004000⟩ := by decide

/-- V-C15. -/
theorem test_rdctr : answer (exec .rdctr (gen 20)) = some ⟨0x0, 0x00000001⟩ := by decide

/-- V-C16: the reset state, but for the ports. -/
theorem test_zero : after (exec .zero (gen 8)) = some { idle with responses := [⟨0x0, 0⟩] } := by decide

/-- V-C17. -/
theorem test_all_zero_word :
    after (step { gen 20 with port := [0x00000000] }) = some { gen 20 with responses := [⟨0x1, 0⟩] } := by decide

/-- R184: a word presented while an `INITE` waits is held, not run. -/
theorem test_word_is_held :
    after (step { waiting with port := [0x90000000], events := [.present 0x70000000] }) =
      some { waiting with port := [0x90000000, 0x70000000] } := by decide

/-- R241: reset while an `INITE` waits ends it with no response; R218: a stray answer is discarded. -/
theorem test_reset_while_waiting :
    after (step { waiting with skey := key6, events := [.reset, .answer 1 .fail] }) =
      some { idle with events := [.answer 1 .fail], requests := [⟨44⟩] } ∧
    after (step { idle with events := [.answer 1 .fail] }) = some idle := by decide

/-- R241: the answer to an abandoned request is discarded while a newer `INITE` waits. -/
theorem test_late_answer_is_discarded :
    after (step { waiting with requests := [⟨44⟩, ⟨44⟩], events := [.answer 1 (.ok entropy6), .answer 2 .fail] }) =
      some { waiting with requests := [⟨44⟩, ⟨44⟩], events := [.answer 2 .fail] } := by decide

/-! ### Witnesses: concrete inputs that meet the hypotheses of each statement -/

theorem witness_DecodeOfEncodeIsTheCommand : Instr.wellFormed (.wnonce 11 0xff) = true := by decide

theorem witness_LegalWordIsItsCommandsEncoding : decode 0x20000bff = .ok (.wnonce 11 0xff) := by decide

theorem witness_LegalWordsAreTheRowsOfTheTable :
    decode 0x20000b00 = .ok (.wnonce 11 0) ∧ (encodingRow (.wnonce 0 0)).holds 0x20000b00 = true ∧
    (encodingRow (.wnonce 0 0)).holds 0x20000c00 = false := by decide

theorem witness_ReservedOpcodesAreIllegal :
    opField 0x00000000 = 0x0 ∧ 0xA ≤ (opField 0xa0000000).toNat ∧ 0xA ≤ (opField 0xffffffff).toNat := by decide

theorem witness_ReservedBitsAreNeverIgnored :
    rsvField 0x08000000 ≠ 0 ∧ (3 ≤ (opField 0x30000100).toNat ∧ idxField 0x30000100 ≠ 0) ∧
    (4 ≤ (opField 0x40000001).toNat ∧ immField 0x40000001 ≠ 0) := by decide

theorem witness_StepRunsTheDecodedCommand :
    ∃ (s : State) (w : Word) (rest : List Word) (i : Instr),
      s.pending = .idle ∧ s.port = w :: rest ∧ decode w = .ok i :=
  ⟨{ idle with port := [0x60000000, 0] }, 0x60000000, [0], .nextb, by decide⟩

theorem witness_IllegalWordAnswersIllegalCommand :
    ∃ (s : State) (w : Word) (rest : List Word) (e : Illegal),
      s.pending = .idle ∧ s.port = w :: rest ∧ decode w = .error e :=
  ⟨{ idle with port := [0x00000000] }, 0, [], .reservedOpcode, by decide⟩

/-- For the statements about every step: one step that accepts a word, one that takes an event, one that waits. -/
theorem witness_every_step :
    (∃ t, step { idle with port := [0x70000000] } = .next t) ∧
    (∃ t, step { idle with events := [.present 0x70000000] } = .next t) ∧ (∃ t, step idle = .next t) :=
  ⟨⟨_, rfl⟩, ⟨_, rfl⟩, ⟨_, rfl⟩⟩

theorem witness_WaitingCoreAcceptsNoCommand :
    waiting.pending = .waitEntropy ∧ (∃ t, step { waiting with events := [.present 0x70000000] } = .next t) :=
  ⟨rfl, ⟨_, rfl⟩⟩

theorem witness_UnansweredInitWaitsForEver :
    ∃ s : State, s.pending = .waitEntropy ∧ s.events ≠ [] ∧ ∀ e ∈ s.events, ∃ w, e = .present w :=
  ⟨{ waiting with events := [.present 0x70000000] }, rfl, by simp, by simp⟩

theorem witness_AcceptedWordIsAnsweredOnce :
    (∃ t, acceptCommand 0x70000000 idle = .next t) ∧ (∃ t, acceptCommand 0x50000000 idle = .next t) :=
  ⟨⟨_, rfl⟩, ⟨_, rfl⟩⟩

theorem witness_ErrorsWriteNoState :
    (∃ (w : Word) (s t : State) (r : Response),
      acceptCommand w s = .next t ∧ t.responses = s.responses ++ [r] ∧ r.code ≠ 0) ∧
    ∃ (s t : State) (r : Response),
      s.pending = .waitEntropy ∧ step s = .next t ∧ t.responses = s.responses ++ [r] ∧ r.code ≠ 0 :=
  ⟨⟨0, idle, idle.respond .illegalCommand 0, ⟨1, 0⟩, rfl, rfl, by decide⟩,
    ⟨{ waiting with events := [.answer 1 .fail] }, _, ⟨3, 0⟩, rfl, rfl, rfl, by decide⟩⟩

/-- The two sides of the index bound, a word with `RSV` set and one with index 32. -/
theorem witness_WkeyWritesOneStagingByte :
    (31 : Byte).toNat < 32 ∧ 31 < (32 : Byte).toNat ∧
    (opField 0x10010000 = 0x1 ∧ rsvField 0x10010000 ≠ 0) ∧
    (opField 0x10002000 = 0x1 ∧ 31 < (idxField 0x10002000).toNat) := by decide

theorem witness_WnonceWritesOneStagingByte :
    (11 : Byte).toNat < 12 ∧ 11 < (12 : Byte).toNat ∧
    (opField 0x20010000 = 0x2 ∧ rsvField 0x20010000 ≠ 0) ∧
    (opField 0x20000c00 = 0x2 ∧ 11 < (idxField 0x20000c00).toNat) := by decide

theorem witness_WroundsStoresAnyByte :
    (opField 0x30010000 = 0x3 ∧ rsvField 0x30010000 ≠ 0) ∧ (opField 0x30000114 = 0x3 ∧ idxField 0x30000114 ≠ 0) := by
  decide

/-- For the words of `INITK`, `INITE`, `NEXTB`, `RDSTAT`, `RDCTR` and `ZERO`: a word of the opcode that is no command. -/
theorem witness_other_words_of_an_opcode :
    (opField 0x40000001 = 0x4 ∧ (0x40000001 : Word) ≠ 0x40000000) ∧
    (opField 0x50000100 = 0x5 ∧ (0x50000100 : Word) ≠ 0x50000000) ∧
    (opField 0x60010000 = 0x6 ∧ (0x60010000 : Word) ≠ 0x60000000) ∧
    (opField 0x7fffffff = 0x7 ∧ (0x7fffffff : Word) ≠ 0x70000000) ∧
    (opField 0x88000000 = 0x8 ∧ (0x88000000 : Word) ≠ 0x80000000) ∧
    (opField 0x90000001 = 0x9 ∧ (0x90000001 : Word) ≠ 0x90000000) := by decide

theorem witness_StagingWritesFrame :
    (∃ t, exec (.wkey 31 1) idle = .next t) ∧ (∃ t, exec (.wnonce 11 1) idle = .next t) ∧
    (∃ t, exec (.wrounds 1) idle = .next t) ∧ (30 : Nat) ≠ (31 : Byte).toNat :=
  ⟨⟨_, rfl⟩, ⟨_, rfl⟩, ⟨_, rfl⟩, by decide⟩

theorem witness_ConstructionChecksTheRoundCountFirst :
    ({ idle with srounds := 0 } : State).srounds = 0 ∧ ({ idle with srounds := 255 } : State).srounds.toNat % 2 = 1 := by
  decide

/-- For `InitkConstructsFromStaging` and `IniteRequestsEntropyAndWaits`: the smallest and the largest legal count. -/
theorem witness_legal_round_counts :
    ((2 : Byte) ≠ 0 ∧ (2 : Byte).toNat % 2 = 0) ∧ ((254 : Byte) ≠ 0 ∧ (254 : Byte).toNat % 2 = 0) := by decide

/-- For `EntropyAnswerCompletesInite` and `EntropyConstructionIsExplicitConstruction`. -/
theorem witness_entropy_answer :
    ∃ (s t u : State) (e : Vector Byte 44) (es : List Event) (key : Vector Byte 32) (nonce : Vector Byte 12),
      s.pending = .waitEntropy ∧ s.events = .answer s.requests.length (.ok e) :: es ∧ s.srounds ≠ 0 ∧ s.srounds.toNat % 2 = 0 ∧
      (∀ (j : Nat) (hj : j < 32), key[j] = e[j]) ∧ (∀ (j : Nat) (hj : j < 12), nonce[j] = e[32 + j]) ∧
      step s = .next t ∧ exec .initk { s with skey := key, snonce := nonce } = .next u :=
  ⟨{ waiting with events := [.answer 1 (.ok entropy6)] }, _, _, entropy6, [], key6, nonce6, rfl, rfl, by decide, by decide,
    by decide, by decide, rfl, rfl⟩

theorem witness_EntropyFailureKeepsEveryField :
    ∃ (s : State) (a : EntropyAnswer) (es : List Event),
      s.pending = .waitEntropy ∧ s.events = .answer s.requests.length a :: es ∧ (a = .fail ∨ ∃ n, a = .short n) :=
  ⟨{ waiting with events := [.answer 1 (.short 43)] }, .short 43, [], rfl, rfl, .inr ⟨43, rfl⟩⟩

theorem witness_ReconstructionForgetsTheOldGenerator :
    (∃ s s' t t' : State, s'.srounds = s.srounds ∧ s.srounds ≠ 0 ∧ s.srounds.toNat % 2 = 0 ∧ s'.skey = s.skey ∧
      s'.snonce = s.snonce ∧ exec .initk s = .next t ∧ exec .initk s' = .next t' ∧ s'.key ≠ s.key) ∧
    ∃ (s s' t t' : State) (e : Vector Byte 44), s'.srounds = s.srounds ∧ s.srounds ≠ 0 ∧ s.srounds.toNat % 2 = 0 ∧
      s.pending = .waitEntropy ∧ s'.pending = .waitEntropy ∧ s.events = [.answer s.requests.length (.ok e)] ∧
      s'.events = [.answer s'.requests.length (.ok e)] ∧ step s = .next t ∧ step s' = .next t' ∧ s'.key ≠ s.key :=
  ⟨⟨idle, { idle with key := key6, constructed := true }, _, _, rfl, by decide, by decide, rfl, rfl, rfl, rfl, by decide⟩,
    ⟨{ waiting with events := [.answer 1 (.ok entropy6)] },
      { waiting with key := key6, constructed := true, events := [.answer 1 (.ok entropy6)] }, _, _, entropy6, rfl,
      by decide, by decide, rfl, rfl, rfl, rfl, rfl, rfl, by decide⟩⟩

theorem witness_FailedConstructionChangesNoField :
    (∃ s t : State, s.srounds.toNat % 2 = 1 ∧ exec .initk s = .next t) ∧
    ∃ (s u t : State) (ws : List Word) (es : List Event) (a : EntropyAnswer),
      s.pending = .idle ∧ s.srounds ≠ 0 ∧ s.srounds.toNat % 2 = 0 ∧
      s.events = ws.map Event.present ++ .answer u.requests.length a :: es ∧ (a = .fail ∨ ∃ n, a = .short n) ∧
      exec .inite s = .next u ∧ Steps (ws.length + 1) u t :=
  ⟨⟨{ idle with srounds := 7 }, _, by decide, rfl⟩,
    { gen 20 with events := [.present 0x70000000, .answer 1 .fail] }, _, _, [0x70000000], [], .fail,
    rfl, by decide, by decide, rfl, .inl rfl, rfl, ⟨_, rfl, _, rfl, rfl⟩⟩

theorem witness_ResetInputSetsTheResetValues :
    (∃ s : State, s.events = [.reset] ∧ s.pending = .waitEntropy) ∧ (∃ s : State, s.events = [.reset] ∧ s.port = []) :=
  ⟨⟨{ waiting with events := [.reset] }, rfl, rfl⟩, ⟨{ gen 20 with events := [.reset] }, rfl, rfl⟩⟩

/-- Request 2 waits, a reset abandons it, a newer `INITE` follows, and an answer to `request` comes. -/
def lateAnswer (request : Nat) : State :=
  { waiting with requests := [⟨44⟩, ⟨44⟩], events := [.reset, .present 0x50000000, .answer request .fail] }

/-- The state in which the answer of `lateAnswer` comes: request 3 waits. -/
def lateAnswerArrives (request : Nat) : State :=
  { waiting with requests := [⟨44⟩, ⟨44⟩, ⟨44⟩], events := [.answer request .fail] }

/-- The abandoned request (2), an earlier one (1), and the number that no request has (0). -/
theorem witness_ResetAbandonsTheWaitingInite : ∀ request ∈ [2, 1, 0],
    (lateAnswer request).pending = .waitEntropy ∧ (lateAnswer request).events.head? = some .reset ∧
    request ≤ (lateAnswer request).requests.length ∧
    (∃ t, step (lateAnswer request) = .next t ∧ Steps 2 t (lateAnswerArrives request)) ∧
    (lateAnswerArrives request).nextMove = .arrive (.answer request .fail) ∧
    (lateAnswerArrives request).pending = .waitEntropy := by
  intro request h
  have hs : ∃ t, step (lateAnswer request) = .next t ∧ Steps 2 t (lateAnswerArrives request) := by
    simp only [List.mem_cons, List.not_mem_nil, or_false] at h
    rcases h with rfl | rfl | rfl <;> exact ⟨_, rfl, _, rfl, _, rfl, by show _ = _; decide⟩
  have hr : request ≤ 2 := by clear hs; revert request; decide
  exact ⟨rfl, rfl, hr, hs, rfl, rfl⟩

theorem witness_ResetStateHoldsTheSpecsValues : ∃ t : State, exec .zero (gen 20) = .next t := ⟨_, rfl⟩

theorem witness_ResetWinsAndStrayAnswersAreDiscarded :
    (∃ s : State, s.pending = .waitEntropy ∧ s.events = [.resetAndAnswer .fail]) ∧
    (∃ s : State, s.pending = .idle ∧ s.port = [] ∧ s.events = [.answer 1 .fail]) ∧
    (∃ s : State, s.pending = .waitEntropy ∧ 1 ≠ s.requests.length ∧ s.events = [.answer 1 .fail]) :=
  ⟨⟨{ waiting with events := [.resetAndAnswer .fail] }, rfl, rfl⟩, ⟨{ idle with events := [.answer 1 .fail] }, rfl, rfl, rfl⟩,
    ⟨{ waiting with requests := [⟨44⟩, ⟨44⟩], events := [.answer 1 .fail] }, rfl, by decide, rfl⟩⟩

theorem witness_OnlyNextbReportsNotConstructed :
    idle.constructed = false ∧
    ∃ (i : Instr) (s t : State) (d : Word), exec i s = .next t ∧ t.responses = s.responses ++ [⟨0x4, d⟩] :=
  ⟨rfl, .nextb, idle, idle.respond .notConstructed 0, 0, rfl, rfl⟩

/-- For `NextbServesTheNextByte`: the first and the last byte of a buffer, a refill, no generator, exhaustion. -/
theorem witness_NextbServesTheNextByte :
    (∃ s : State, s.cursor.val = 0 ∧ s.cursor.val < 64 ∧ s.constructed = true) ∧
    (∃ s : State, s.cursor.val = 63 ∧ s.cursor.val < 64 ∧ s.constructed = true) ∧
    ((gen 20).constructed = true ∧ (gen 20).cursor = 64 ∧ ¬ ((gen 20).wrapped = true ∧ (gen 20).ctrOvf = .halt)) ∧
    idle.constructed = false ∧
    (exhausted.constructed = true ∧ exhausted.cursor = 64 ∧ exhausted.wrapped = true ∧ exhausted.ctrOvf = .halt) :=
  ⟨⟨{ gen 20 with cursor := 0 }, by decide⟩, ⟨{ gen 20 with cursor := 63 }, by decide⟩, by decide, rfl, by decide⟩

theorem witness_NextbRefillsAtTheEndOfTheBuffer :
    (∃ t : State, exec .initk { gen 20 with counter := 7 } = .next t ∧ t.counter ≠ 7) ∧
    (∃ s : State, s.constructed = true ∧ s.cursor = 64 ∧ s.wrapped = false ∧ s.counter = 0xFFFFFFFF) ∧
    (∃ s : State, s.constructed = true ∧ s.cursor = 64 ∧ s.wrapped = true ∧ s.ctrOvf = .wrap) :=
  ⟨⟨_, rfl, by decide⟩, ⟨{ gen 20 with counter := 0xFFFFFFFF }, by decide⟩, ⟨{ gen 20 with wrapped := true }, by decide⟩⟩

theorem witness_CounterExhaustedOnlyUnderHalt :
    (exhausted.constructed = true ∧ exhausted.cursor = 64 ∧ exhausted.wrapped = true ∧ exhausted.ctrOvf = .halt) ∧
    ∃ (i : Instr) (s t : State) (d : Word), exec i s = .next t ∧ t.responses = s.responses ++ [⟨0x5, d⟩] :=
  ⟨by decide, .nextb, exhausted, exhausted.respond .counterExhausted 0, 0, rfl, rfl⟩

/-- For `NextbsServeTheKeystreamInOrder` and `EqualSeedsServeEqualBytes`: one step that serves a byte (V-BLK-2RND). -/
theorem witness_NextbsServeTheKeystreamInOrder :
    State.Fresh { gen 2 with port := [0x60000000] } ∧ Undisturbed 1 { gen 2 with port := [0x60000000] } ∧
    (bytesServed 1 { gen 2 with port := [0x60000000] })[0]? = some 0x7c :=
  ⟨⟨rfl, rfl, rfl, rfl⟩, ⟨by decide, fun _ _ => trivial⟩, by decide⟩

/-- A generator under `WRAP` with `m` `NEXTB`s at its port serves `m` bytes in `m` steps. -/
theorem nextbs_serve {m : Nat} {s : State} (hc : s.constructed = true) (ho : s.ctrOvf = .wrap) (hp : s.pending = .idle)
    (hw : s.port = List.replicate m 0x60000000) : Undisturbed m s ∧ (bytesServed m s).length = m := by
  induction m generalizing s with
  | zero => exact ⟨trivial, rfl⟩
  | succ m ih =>
    have hd : decode 0x60000000 = .ok .nextb := by decide
    have hm : s.nextMove = .accept 0x60000000 := nextMove_accept_iff.mpr ⟨hp, _, hw⟩
    obtain ⟨t, ht⟩ : ∃ t, exec .nextb s.takeCommand = .next t := by
      simp only [exec, execNextb]
      split
      · exact ⟨_, rfl⟩
      · split
        · exact ⟨_, rfl⟩
        · split <;> exact ⟨_, rfl⟩
    have hs : step s = .next t := by rw [step_of_accept hm, acceptCommand_of_ok hd, ht]
    have hl : s.endsLifetime = false := by simp only [State.endsLifetime, hm, hd]
    have hk : t.constructed = true ∧ t.ctrOvf = .wrap ∧ t.pending = .idle ∧ t.port = List.replicate m 0x60000000 ∧
        (servedByte s t).isSome = true := by
      rcases execNextb_next ht with ⟨h, rfl⟩ | ⟨_, _, rfl⟩ | ⟨_, _, _, h, rfl⟩ | ⟨_, _, _, rfl⟩ <;>
        simp_all [servedByte, List.replicate_succ, StatusCode.bits]
    obtain ⟨k1, k2, k3, k4, k5⟩ := hk
    obtain ⟨hu, hb⟩ := ih k1 k2 k3 k4
    refine ⟨⟨hl, fun u h => ?_⟩, ?_⟩
    · rw [hs] at h
      cases h
      exact hu
    · obtain ⟨b, hb'⟩ := Option.isSome_iff_exists.mp k5
      rw [bytesServed_succ hs, List.length_append, hb, hb']
      exact Nat.add_comm 1 m

theorem witness_ServedBytesRepeatAfter256GiB :
    ∃ (s : State) (n : Nat) (b b' : Byte), s.Fresh ∧ s.ctrOvf = .wrap ∧ Undisturbed n s ∧
      (bytesServed n s)[0]? = some b ∧ (bytesServed n s)[0 + 2 ^ 38]? = some b' := by
  obtain ⟨hu, hl⟩ := nextbs_serve (m := 2 ^ 38 + 1)
    (s := { gen 20 with port := List.replicate (2 ^ 38 + 1) 0x60000000 }) rfl rfl rfl rfl
  generalize 2 ^ 38 = m at hu hl ⊢
  exact ⟨_, m + 1, _, _, ⟨rfl, rfl, rfl, rfl⟩, rfl, hu, List.getElem?_eq_getElem (by omega),
    List.getElem?_eq_getElem (by omega)⟩

theorem witness_CounterCountsTheRefills :
    ∃ s t : State, s.Fresh ∧ Undisturbed 1 s ∧ Steps 1 s t :=
  ⟨{ gen 2 with port := [0x70000000] }, _, ⟨rfl, rfl, rfl, rfl⟩, ⟨by decide, fun _ _ => trivial⟩, ⟨_, rfl, rfl⟩⟩

theorem witness_ReachableStatesAreSound : ∃ s : State, Reachable s ∧ s.port = [0x40000000] :=
  ⟨_, ⟨.halt, [.present 0x40000000], 1, _, rfl, rfl⟩, rfl⟩

/-- For `EveryStepKeepsTheInvariant` and `EveryRunIsSafe`: a waiting state that meets the invariant. -/
theorem witness_EveryStepKeepsTheInvariant :
    State.Inv { waiting with events := [.answer 1 (.ok entropy6)] } ∧
    ∃ t, step { waiting with events := [.answer 1 (.ok entropy6)] } = .next t := by
  refine ⟨⟨⟨by decide, fun _ => by decide, fun h => ?_, fun h => ?_, fun h => ?_⟩, fun _ => by decide⟩, ⟨_, rfl⟩⟩ <;>
    exact absurd h (by decide)

theorem witness_KeyAndNonceAreConstantForALifetime :
    ∃ s t : State, step s = .next t ∧ s.endsLifetime = false :=
  ⟨{ gen 2 with port := [0x60000000] }, _, rfl, by decide⟩

theorem witness_ConstructedChangesOnlyAtLifetimeBounds :
    (∃ s t : State, step s = .next t ∧ s.constructed = false ∧ t.constructed = true) ∧
    (∃ s t : State, step s = .next t ∧ s.constructed = true ∧ t.constructed = false) :=
  ⟨⟨{ idle with port := [0x40000000] }, _, rfl, rfl, rfl⟩, ⟨{ gen 20 with port := [0x90000000] }, _, rfl, rfl, rfl⟩⟩

theorem witness_WrappedIsSticky :
    (∃ s t : State, step s = .next t ∧ s.wrapped = false ∧ t.wrapped = true) ∧
    (∃ s t : State, step s = .next t ∧ s.wrapped = true ∧ t.wrapped = false) :=
  ⟨⟨{ gen 2 with counter := 0xFFFFFFFF, port := [0x60000000] }, _, rfl, rfl, rfl⟩,
    ⟨{ exhausted with port := [0x90000000] }, _, rfl, rfl, rfl⟩⟩

theorem witness_PortsAndPolicySurviveDestruction :
    (∃ t : State, Steps 1 { exhausted with events := [.reset] } t) ∧ (∃ t : State, exec .zero exhausted = .next t) ∧
    ∃ s t : State, s.events = [.reset] ∧ s.pending = .waitEntropy ∧ s.port ≠ [] ∧ step s = .next t :=
  ⟨⟨_, _, rfl, rfl⟩, ⟨_, rfl⟩, { waiting with events := [.reset], port := [0x70000000] }, _, rfl, rfl, by decide, rfl⟩

theorem witness_StagingSecretsAreNotReadOut :
    ∃ (s t t' : State) (k : Vector Byte 32) (n : Vector Byte 12),
      exec .rdstat s = .next t ∧ exec .rdstat { s with skey := k, snonce := n } = .next t' ∧ k ≠ s.skey :=
  ⟨idle, _, _, key6, nonce6, rfl, rfl, by decide⟩

theorem witness_OnlyARefillDependsOnKeyAndNonce :
    (∃ (s t t' : State) (k : Vector Byte 32) (n : Vector Byte 12),
      s.cursor ≠ 64 ∧ s.constructed = true ∧ exec .nextb s = .next t ∧
      exec .nextb { s with key := k, nonce := n } = .next t' ∧ k ≠ s.key) ∧
    ∃ (s t t' : State) (k : Vector Byte 32) (n : Vector Byte 12),
      (s.cursor = 64 ∧ s.constructed = true ∧ s.wrapped = true ∧ s.ctrOvf = .halt) ∧ exec .nextb s = .next t ∧
      exec .nextb { s with key := k, nonce := n } = .next t' ∧ k ≠ s.key :=
  ⟨⟨{ gen 20 with cursor := 63 }, _, _, Vector.replicate 32 0, nonce6, by decide, rfl, rfl, rfl, by decide⟩,
    ⟨exhausted, _, _, Vector.replicate 32 0, nonce6, by decide, rfl, rfl, by decide⟩⟩

theorem witness_InitialStateIsInjective : initState key6 nonce6 1 = initState key6 nonce6 1 := rfl

theorem witness_QuarterRoundMixesItsFourSlots :
    ∃ a b c d j : Fin 16, a ≠ b ∧ a ≠ c ∧ a ≠ d ∧ b ≠ c ∧ b ≠ d ∧ c ≠ d ∧ j ≠ a ∧ j ≠ b ∧ j ≠ c ∧ j ≠ d :=
  ⟨0, 4, 8, 12, 15, by decide⟩

theorem witness_QuarterRoundsOfARoundCommute :
    List.Perm [(3, 7, 11, 15), (2, 6, 10, 14), (1, 5, 9, 13), (0, 4, 8, 12)]
      ([(0, 4, 8, 12), (1, 5, 9, 13), (2, 6, 10, 14), (3, 7, 11, 15)] : List (Fin 16 × Fin 16 × Fin 16 × Fin 16)) ∧
    List.Perm [(3, 4, 9, 14), (2, 7, 8, 13), (1, 6, 11, 12), (0, 5, 10, 15)]
      ([(0, 5, 10, 15), (1, 6, 11, 12), (2, 7, 8, 13), (3, 4, 9, 14)] : List (Fin 16 × Fin 16 × Fin 16 × Fin 16)) := by
  decide

theorem witness_TwoMoreRoundsAreOneDoubleRound : (252 : Byte).toNat + 2 < 256 := by decide

theorem witness_rotation_amounts : (0 < 1 ∧ 1 < 32) ∧ (0 < 31 ∧ 31 < 32) := by decide

theorem witness_FinalizedBytesAreLittleEndianSums : (15 : Nat) < 16 ∧ (3 : Nat) < 4 := by decide

end Sys2Proof.Tests
end

section
/-! SUPPORT. The byte lanes of a little-endian word (00_scope.md R13). The composition by shifts is the concatenation
of the four bytes, so both inverse laws are facts about extraction from a concatenation. -/

namespace Sys2Proof.Machine

/-- The four shifted bytes do not overlap, so their or is their concatenation, the last byte on top. -/
theorem le32_eq_append (b0 b1 b2 b3 : Byte) : le32 b0 b1 b2 b3 = b3 ++ b2 ++ b1 ++ b0 := by
  have lanes := BitVec.setWidth_append_append_append_eq_shiftLeft_setWidth_or
    (b := b3) (b' := b2) (b'' := b1) (b''' := b0) (w'''' := 32)
  simp only [BitVec.setWidth_eq, Nat.reduceAdd] at lanes
  calc
    le32 b0 b1 b2 b3 = zext32 b3 <<< 24 ||| (zext32 b2 <<< 16 ||| (zext32 b1 <<< 8 ||| zext32 b0)) := by
      rw [le32, BitVec.or_comm _ (zext32 b3 <<< 24), BitVec.or_comm _ (zext32 b2 <<< 16), BitVec.or_comm (zext32 b0)]
    _ = zext32 b3 <<< 24 ||| zext32 b2 <<< 16 ||| zext32 b1 <<< 8 ||| zext32 b0 := by
      rw [BitVec.or_assoc, BitVec.or_assoc]
    _ = b3 ++ b2 ++ b1 ++ b0 := lanes.symm

theorem leBytes_le32 (b0 b1 b2 b3 : Byte) : leBytes (le32 b0 b1 b2 b3) = #v[b0, b1, b2, b3] := by
  rw [le32_eq_append]
  simp (disch := decide) only [leBytes, byteOf, BitVec.extractLsb'_append_eq_of_le (w := 8),
    BitVec.extractLsb'_append_eq_of_add_le (w := 8), Nat.reduceMul, Nat.reduceSub, BitVec.extractLsb'_eq_self]

theorem le32_byteOf (w : Word) : le32 (byteOf w 0) (byteOf w 1) (byteOf w 2) (byteOf w 3) = w := by
  rw [le32_eq_append]
  calc
    w.extractLsb' 24 8 ++ w.extractLsb' 16 8 ++ w.extractLsb' 8 8 ++ w.extractLsb' 0 8
      = w.extractLsb' 16 16 ++ w.extractLsb' 8 8 ++ w.extractLsb' 0 8 := by
        rw [BitVec.extractLsb'_append_extractLsb'_eq_extractLsb' (by rfl)]
    _ = w.extractLsb' 8 24 ++ w.extractLsb' 0 8 := by
        rw [BitVec.extractLsb'_append_extractLsb'_eq_extractLsb' (by rfl)]
    _ = w.extractLsb' 0 32 := BitVec.extractLsb'_append_extractLsb'_eq_extractLsb' (by rfl)
    _ = w := BitVec.extractLsb'_eq_self

/-- Settles O54: the formula and the byte order are the definitions' own, and the two compositions are
`leBytes_le32` and `le32_byteOf`. -/
theorem littleEndianCompositionInverts : Obligations.LittleEndianCompositionInverts :=
  ⟨fun b0 b1 b2 b3 => ⟨rfl, leBytes_le32 b0 b1 b2 b3⟩, fun w => ⟨rfl, le32_byteOf w⟩⟩

end Sys2Proof.Machine
end

section
/-! SUPPORT. What begins and ends a generator lifetime, in terms of the next transition (10_state.md R23, R29): one
equivalence per kind of transition, so that a statement about a step becomes one about the command or the event. -/

namespace Sys2Proof.Machine

variable {s t : State} {w : Word} {e : Event}

theorem accepts_iff_of_accept {i : Instr} (h : s.nextMove = .accept w) : s.accepts i ↔ decode w = .ok i := by
  simp [State.accepts, h]

theorem not_accepts_of_arrive (i : Instr) (h : s.nextMove = .arrive e) : ¬ s.accepts i := by
  simp [State.accepts, h]

theorem not_accepts_of_wait (i : Instr) (h : s.nextMove = .wait) : ¬ s.accepts i := by
  simp [State.accepts, h]

theorem constructs_iff_of_accept (h : s.nextMove = .accept w) :
    s.constructs ↔ decode w = .ok .initk ∧ legalRounds s.srounds = true := by
  simp [State.constructs, accepts_iff_of_accept h, h]

theorem constructs_iff_of_arrive (h : s.nextMove = .arrive e) :
    s.constructs ↔ ∃ n b, e = .answer n (.ok b) ∧ s.awaits n = true := by
  simp [State.constructs, not_accepts_of_arrive .initk h, h]

theorem not_constructs_of_wait (h : s.nextMove = .wait) : ¬ s.constructs := by
  simp [State.constructs, not_accepts_of_wait .initk h, h]

theorem destroys_iff_of_accept (h : s.nextMove = .accept w) : s.destroys ↔ decode w = .ok .zero := by
  simp [State.destroys, accepts_iff_of_accept h, h]

theorem destroys_iff_of_arrive (h : s.nextMove = .arrive e) :
    s.destroys ↔ e = .reset ∨ ∃ a, e = .resetAndAnswer a := by
  simp [State.destroys, not_accepts_of_arrive .zero h, h]

theorem not_destroys_of_wait (h : s.nextMove = .wait) : ¬ s.destroys := by
  simp [State.destroys, not_accepts_of_wait .zero h, h]

/-- The frame of a command that neither constructs, nor refills, nor destroys. -/
theorem exec_keeps_constructed_wrapped {i : Instr} (hk : i ≠ .initk) (hn : i ≠ .nextb) (hz : i ≠ .zero)
    (h : exec i s = .next t) : t.constructed = s.constructed ∧ t.wrapped = s.wrapped := by
  cases i with
  | wkey idx imm => rcases execWkey_next h with ⟨_, rfl⟩ | ⟨_, rfl⟩ <;> simp
  | wnonce idx imm => rcases execWnonce_next h with ⟨_, rfl⟩ | ⟨_, rfl⟩ <;> simp
  | wrounds imm => rcases execWrounds_next h with rfl; simp
  | inite => rcases execInite_next h with ⟨_, rfl⟩ | ⟨_, rfl⟩ <;> simp
  | rdstat => rcases execRdstat_next h with rfl; simp
  | rdctr => rcases execRdctr_next h with rfl; simp
  | initk => exact absurd rfl hk
  | nextb => exact absurd rfl hn
  | zero => exact absurd rfl hz

/-- R23 for a command. -/
theorem exec_constructed_iff {i : Instr} (h : exec i s = .next t) :
    t.constructed = true ↔
      (i = .initk ∧ legalRounds s.srounds = true) ∨ (s.constructed = true ∧ i ≠ .zero) := by
  by_cases hk : i = .initk
  · subst hk
    rcases execInitk_next h with ⟨hl, rfl⟩ | ⟨hl, rfl⟩ <;> simp [hl]
  by_cases hn : i = .nextb
  · subst hn
    rcases execNextb_next h with ⟨_, rfl⟩ | ⟨_, _, rfl⟩ | ⟨_, _, _, _, rfl⟩ | ⟨_, _, _, rfl⟩ <;> simp
  by_cases hz : i = .zero
  · subst hz
    rcases execZero_next h with rfl
    simp
  simp [exec_keeps_constructed_wrapped hk hn hz h, hk, hz]

/-- The bit `wrapped` after `NEXTB`. With the cursor at 64 it is that of a refill also where `HALT` refuses the refill
(43_keystream_cursor.md R152), since the bit is 1 there already. -/
theorem execNextb_wrapped (h : execNextb s = .next t) :
    t.wrapped = true ↔ (s.constructed = true ∧ s.cursor = 64 ∧ s.counter = 0xFFFFFFFF) ∨ s.wrapped = true := by
  rcases execNextb_next h with ⟨hc, rfl⟩ | ⟨_, hlt, rfl⟩ | ⟨_, _, hw, _, rfl⟩ | ⟨hc, h64, _, rfl⟩
  · simp [hc]
  · have : s.cursor ≠ 64 := fun h64 => by simp [h64] at hlt
    simp [this]
  · simp [hw]
  · simp [hc, h64, wrappedAfter, or_comm]

/-- R29 for a command. -/
theorem exec_wrapped_iff {i : Instr} (h : exec i s = .next t) :
    t.wrapped = true ↔
      (i = .nextb ∧ s.constructed = true ∧ s.cursor = 64 ∧ s.counter = 0xFFFFFFFF) ∨
      (s.wrapped = true ∧ ¬ (i = .initk ∧ legalRounds s.srounds = true) ∧ i ≠ .zero) := by
  by_cases hk : i = .initk
  · subst hk
    rcases execInitk_next h with ⟨hl, rfl⟩ | ⟨hl, rfl⟩ <;> simp [hl]
  by_cases hn : i = .nextb
  · subst hn
    simpa using execNextb_wrapped h
  by_cases hz : i = .zero
  · subst hz
    rcases execZero_next h with rfl
    simp
  simp [exec_keeps_constructed_wrapped hk hn hz h, hk, hn, hz]

/-- Where a command sets `wrapped`, it is the refill that moves the counter to 0. -/
theorem exec_counter_of_wrapped_rises {i : Instr} (h : exec i s = .next t) (hs : s.wrapped = false)
    (ht : t.wrapped = true) : t.counter = 0 := by
  obtain ⟨rfl, -, -, hctr⟩ : i = .nextb ∧ s.constructed = true ∧ s.cursor = 64 ∧ s.counter = 0xFFFFFFFF := by
    simpa [hs] using (exec_wrapped_iff h).mp ht
  rcases execNextb_next h with ⟨_, rfl⟩ | ⟨_, _, rfl⟩ | ⟨_, _, _, _, rfl⟩ | ⟨_, _, _, rfl⟩
  · simp [hs] at ht
  · simp [hs] at ht
  · simp [hs] at ht
  · simp [hctr]

/-- An entropy answer either completes an `INITE` and so begins a lifetime, or leaves both bits alone. -/
theorem receiveAnswer_constructed_wrapped (s : State) (n : Nat) (a : EntropyAnswer) :
    (∃ b, a = .ok b ∧ s.awaits n = true ∧
      (s.receiveAnswer n a).constructed = true ∧ (s.receiveAnswer n a).wrapped = false) ∨
    ((∀ b, a = .ok b → s.awaits n = false) ∧
      (s.receiveAnswer n a).constructed = s.constructed ∧ (s.receiveAnswer n a).wrapped = s.wrapped) := by
  rcases receiveAnswer_cases s n a with ⟨hw, h⟩ | ⟨hw, b, rfl, h⟩ | ⟨_, rfl | ⟨m, rfl⟩, h⟩
  · simp [h, hw]
  · simp [h, hw]
  · simp [h]
  · simp [h]

/-- R23 for an outside event: only the answer that completes an `INITE` sets the bit, only a reset clears it. -/
theorem arrive_constructed_iff (s : State) (e : Event) :
    (s.arrive e).constructed = true ↔
      (∃ n b, e = .answer n (.ok b) ∧ s.awaits n = true) ∨
      (s.constructed = true ∧ ¬ (e = .reset ∨ ∃ a, e = .resetAndAnswer a)) := by
  cases e with
  | present w => simp [State.arrive]
  | answer n a =>
    rcases receiveAnswer_constructed_wrapped s n a with ⟨b, rfl, hw, hc, -⟩ | ⟨hk, hc, -⟩
    · simp [State.arrive, hw, hc]
    · simpa [State.arrive, hc] using fun b ha hw => absurd hw (by simp [hk b ha])
  | reset => simp [State.arrive]
  | resetAndAnswer a => simp [State.arrive]

/-- R29 for an outside event: none sets the bit, and the bounds of a lifetime clear it. -/
theorem arrive_wrapped_iff (s : State) (e : Event) :
    (s.arrive e).wrapped = true ↔
      s.wrapped = true ∧ ¬ (∃ n b, e = .answer n (.ok b) ∧ s.awaits n = true) ∧
        ¬ (e = .reset ∨ ∃ a, e = .resetAndAnswer a) := by
  cases e with
  | present w => simp [State.arrive]
  | answer n a =>
    rcases receiveAnswer_constructed_wrapped s n a with ⟨b, rfl, hw, -, hr⟩ | ⟨hk, -, hr⟩
    · simp [State.arrive, hw, hr]
    · simpa [State.arrive, hr] using fun _ => hk
  | reset => simp [State.arrive]
  | resetAndAnswer a => simp [State.arrive]

/-- Settles O46: of the accepted commands by `exec_constructed_iff`, of the outside events by `arrive_constructed_iff`. -/
theorem constructedChangesOnlyAtLifetimeBounds : Obligations.ConstructedChangesOnlyAtLifetimeBounds := by
  intro s t h
  rcases step_next h with ⟨w, hm, ha⟩ | ⟨e, hm, rfl⟩ | ⟨hm, rfl⟩
  · rw [constructs_iff_of_accept hm, destroys_iff_of_accept hm]
    rcases acceptCommand_next ha with ⟨i, hd, hi⟩ | ⟨_, hd, rfl⟩
    · simpa [hd] using exec_constructed_iff hi
    · simp [hd]
  · rw [constructs_iff_of_arrive hm, destroys_iff_of_arrive hm]
    exact arrive_constructed_iff s.dropEvent e
  · simp [not_constructs_of_wait hm, not_destroys_of_wait hm]

/-- Settles O47: of the accepted commands by `exec_wrapped_iff` and `exec_counter_of_wrapped_rises`, of the outside
events by `arrive_wrapped_iff`. -/
theorem wrappedIsSticky : Obligations.WrappedIsSticky := by
  intro s t h
  rcases step_next h with ⟨w, hm, ha⟩ | ⟨e, hm, rfl⟩ | ⟨hm, rfl⟩
  · rw [accepts_iff_of_accept hm, constructs_iff_of_accept hm, destroys_iff_of_accept hm]
    rcases acceptCommand_next ha with ⟨i, hd, hi⟩ | ⟨_, hd, rfl⟩
    · exact ⟨by simpa [hd] using exec_wrapped_iff hi, exec_counter_of_wrapped_rises (s := s.takeCommand) hi⟩
    · simp +contextual [hd]
  · have hbit := arrive_wrapped_iff s.dropEvent e
    rw [constructs_iff_of_arrive hm, destroys_iff_of_arrive hm]
    exact ⟨by simpa [not_accepts_of_arrive .nextb hm] using hbit,
      fun hs ht => absurd (hbit.mp ht).1 (by simp [hs])⟩
  · simp +contextual [not_accepts_of_wait .nextb hm, not_constructs_of_wait hm, not_destroys_of_wait hm]

/-- The twelve fields after a clear are those of the reset state (R39). -/
theorem sameRecord_reset_clear (s : State) : SameRecord State.reset s.clear := by
  constructor
  · constructor <;> rfl
  all_goals rfl

/-- A response is no field of R20. -/
theorem sameRecord_respond (s : State) (c : StatusCode) (d : Word) : SameRecord s (s.respond c d) := by
  constructor
  · constructor <;> rfl
  all_goals rfl

/-- Settles O29: every byte of a replicated vector is 0, and reset and `ZERO` both clear the record. -/
theorem resetStateHoldsTheSpecsValues : Obligations.ResetStateHoldsTheSpecsValues := by
  refine ⟨fun j hj => ⟨Vector.getElem_replicate hj, Vector.getElem_replicate hj⟩,
    fun j hj => ⟨Vector.getElem_replicate hj, Vector.getElem_replicate hj⟩,
    fun j hj => Vector.getElem_replicate hj, rfl, rfl, rfl, rfl, rfl, rfl, rfl,
    fun s => ⟨sameRecord_reset_clear s, fun t h => ?_⟩⟩
  rcases execZero_next h with rfl
  exact (sameRecord_reset_clear s).trans (sameRecord_respond s.clear .ok 0)

end Sys2Proof.Machine
end

section
/-! SUPPORT. The decoder and the rows of the constraint table, field by field (30_encoding.md R73, R80 to R82). A word
fits a command's row when each of its four fields is legal there. It decodes to a command of the row exactly when it
fits the row, and the row's mask and index bound say the same of it. -/

namespace Sys2Proof

open Sys2Proof.Machine

variable {w : Word} {i : Instr}

/-- The columns of `i`'s row in R73: `RSV`, `OP`, `IDX` and `IMM` of the word are legal for the command. -/
structure Instr.Fits (i : Instr) (w : Word) : Prop where
  rsv_eq : rsvField w = 0
  op_eq : opField w = opField (encodingRow i).pattern
  idx_le : (idxField w).toNat ≤ (encodingRow i).lastIdx
  /-- A row whose mask covers `IMM` fixes it at 0. -/
  imm_eq : immField (encodingRow i).mask ≠ 0 → immField w = 0

/-- The command of `i`'s row with the given operands, each where the row takes it (R71). -/
def Instr.withOperands (idx imm : Byte) : Instr → Instr
  | .wkey _ _ => .wkey idx imm
  | .wnonce _ _ => .wnonce idx imm
  | .wrounds _ => .wrounds imm
  | .initk => .initk
  | .inite => .inite
  | .nextb => .nextb
  | .rdstat => .rdstat
  | .rdctr => .rdctr
  | .zero => .zero

@[simp] theorem encodingRow_withOperands (idx imm : Byte) (i : Instr) :
    encodingRow (i.withOperands idx imm) = encodingRow i := by
  cases i <;> rfl

/-! ### The decoder -/

theorem decodeBare_eq_ok_iff {j : Instr} :
    decodeBare j w = .ok i ↔ (idxField w = 0 ∧ immField w = 0) ∧ j = i := by
  unfold decodeBare
  split <;> simp_all

/-- R80 read from the row: a word that fits is the row's command with the word's own operands. -/
theorem decode_of_fits (h : i.Fits w) : decode w = .ok (i.withOperands (idxField w) (immField w)) := by
  obtain ⟨hrsv, hop, hidx, himm⟩ := h
  have hzero : (idxField w).toNat ≤ 0 → idxField w = 0 := by simp [← BitVec.toNat_inj]
  cases i with
  | wkey | wnonce | wrounds => simp_all [decode, encodingRow, opField, Instr.withOperands]
  | initk | inite | nextb | rdstat | rdctr | zero =>
    have hunused := himm (by decide)
    simp_all [decode, decodeBare, encodingRow, opField, Instr.withOperands]

/-- R80 inverted: every branch that answers a command has checked the four columns of the command's row. -/
theorem fits_of_decode (h : decode w = .ok i) : i.Fits w := by
  unfold decode at h
  split at h
  · cases h
  next hrsv =>
    have hrsv := not_not.mp hrsv
    split at h
    case h_1 hop | h_2 hop =>
      split at h
      next hidx =>
        cases h
        refine ⟨hrsv, (field_eq_ofNat hop).trans ?_, hidx, absurd ?_⟩ <;> simp only [encodingRow] <;> decide
      · cases h
    case h_3 hop =>
      split at h
      next hidx =>
        cases h
        have hle : (idxField w).toNat ≤ 0 := by simp [hidx]
        refine ⟨hrsv, (field_eq_ofNat hop).trans ?_, hle, absurd ?_⟩ <;> simp only [encodingRow] <;> decide
      · cases h
    case h_10 => cases h
    case h_4 hop | h_5 hop | h_6 hop | h_7 hop | h_8 hop | h_9 hop =>
      obtain ⟨⟨hidx, himm⟩, rfl⟩ := decodeBare_eq_ok_iff.mp h
      exact ⟨hrsv, (field_eq_ofNat hop).trans (by decide), by simp [hidx], fun _ => himm⟩

theorem decode_error_of_not_fits (h : ∀ i : Instr, ¬ i.Fits w) : ∃ e, decode w = .error e := by
  cases hd : decode w with
  | ok i => exact absurd (fits_of_decode hd) (h i)
  | error e => exact ⟨e, rfl⟩

/-! ### The rows -/

theorem eq_iff_fields {v : Word} : w = v ↔
    opField w = opField v ∧ rsvField w = rsvField v ∧ idxField w = idxField v ∧ immField w = immField v := by
  refine ⟨fun h => by simp [h], fun ⟨hop, hrsv, hidx, himm⟩ => ?_⟩
  rw [← word_of_fields w, ← word_of_fields v, hop, hrsv, hidx, himm]

theorem and_eq_iff_fields {m p : Word} : w &&& m = p ↔
    opField w &&& opField m = opField p ∧ rsvField w &&& rsvField m = rsvField p ∧
      idxField w &&& idxField m = idxField p ∧ immField w &&& immField m = immField p := by
  rw [eq_iff_fields]
  simp only [opField, rsvField, idxField, immField, BitVec.extractLsb'_and]

/-- Every row fixes all of `OP` and `RSV`, and no row has a one among its fixed bits outside `OP`. -/
theorem encodingRow_fixed (i : Instr) :
    opField (encodingRow i).mask = BitVec.allOnes 4 ∧ rsvField (encodingRow i).mask = BitVec.allOnes 12 ∧
      rsvField (encodingRow i).pattern = 0 ∧ idxField (encodingRow i).pattern = 0 ∧
      immField (encodingRow i).pattern = 0 := by
  cases i <;> simp only [encodingRow] <;> decide

/-- An index in range has a zero at each fixed index bit. -/
theorem idx_and_mask {idx : Byte} (h : idx.toNat ≤ (encodingRow i).lastIdx) :
    idx &&& idxField (encodingRow i).mask = 0 := by
  cases i <;> revert idx <;> simp only [encodingRow] <;> decide

/-- A row fixes all of `IMM` or none of it. -/
theorem imm_and_mask_iff {imm : Byte} :
    imm &&& immField (encodingRow i).mask = 0 ↔ (immField (encodingRow i).mask ≠ 0 → imm = 0) := by
  have hmask : immField (encodingRow i).mask = 0 ∨ immField (encodingRow i).mask = BitVec.allOnes 8 := by
    cases i <;> simp only [encodingRow] <;> decide
  rcases hmask with h | h
  · simp [h]
  · rw [h, BitVec.and_allOnes]
    simp

theorem holds_iff_fits : (encodingRow i).holds w = true ↔ i.Fits w := by
  obtain ⟨hop, hrsv, hprsv, hpidx, hpimm⟩ := encodingRow_fixed i
  simp only [EncodingRow.holds, Bool.and_eq_true, decide_eq_true_eq, and_eq_iff_fields, hop, hrsv, hprsv, hpidx, hpimm,
    BitVec.and_allOnes, imm_and_mask_iff]
  constructor
  · rintro ⟨⟨hop, hrsv, -, himm⟩, hidx⟩
    exact ⟨hrsv, hop, hidx, himm⟩
  · rintro ⟨hrsv, hop, hidx, himm⟩
    exact ⟨⟨hop, hrsv, idx_and_mask hidx, himm⟩, hidx⟩

/-- Settles O4: both sides are the fields' legality, by `fits_of_decode`, `decode_of_fits` and `holds_iff_fits`. -/
theorem legalWordsAreTheRowsOfTheTable : Obligations.LegalWordsAreTheRowsOfTheTable :=
  fun _ => ⟨fun _ h => holds_iff_fits.mpr (fits_of_decode h),
    fun i h => ⟨_, decode_of_fits (holds_iff_fits.mp h), encodingRow_withOperands _ _ i⟩⟩

/-! ### Illegal words -/

/-- The opcodes of the rows are `0x1` to `0x9` (R71). -/
theorem opField_pattern_bounds (i : Instr) :
    opField (encodingRow i).pattern ≠ 0 ∧ (opField (encodingRow i).pattern).toNat < 0xA := by
  cases i <;> simp only [encodingRow] <;> decide

/-- From `OP` 3 on a row takes no index, and from `OP` 4 on no byte (R73). -/
theorem encodingRow_operands_of_opField (i : Instr) :
    (3 ≤ (opField (encodingRow i).pattern).toNat → (encodingRow i).lastIdx = 0) ∧
      (4 ≤ (opField (encodingRow i).pattern).toNat → immField (encodingRow i).mask ≠ 0) := by
  cases i <;> simp only [encodingRow] <;> decide

/-- Settles O5: no row has a reserved opcode, and an illegal word is answered by `acceptCommand_of_error`. -/
theorem reservedOpcodesAreIllegal : Obligations.ReservedOpcodesAreIllegal := by
  intro w s hres
  have hnone : ∀ i : Instr, ¬ i.Fits w := fun i hfit => by
    obtain ⟨hne, hlt⟩ := opField_pattern_bounds i
    rw [← hfit.op_eq] at hne hlt
    rcases hres with h0 | hge
    · exact hne h0
    · omega
  obtain ⟨e, he⟩ := decode_error_of_not_fits hnone
  exact ⟨⟨e, he⟩, acceptCommand_of_error he s⟩

/-- Settles O6: a word that fits a row has zero in each of the three places. -/
theorem reservedBitsAreNeverIgnored : Obligations.ReservedBitsAreNeverIgnored := by
  intro w hbits
  refine decode_error_of_not_fits fun i hfit => ?_
  obtain ⟨hnoIdx, hnoImm⟩ := encodingRow_operands_of_opField i
  rw [← hfit.op_eq] at hnoIdx hnoImm
  rcases hbits with hrsv | ⟨hop, hidx⟩ | ⟨hop, himm⟩
  · exact hrsv hfit.rsv_eq
  · have hle := hfit.idx_le
    rw [hnoIdx hop] at hle
    exact hidx (BitVec.eq_of_toNat_eq (by simpa using hle))
  · exact himm (hfit.imm_eq (hnoImm hop))

end Sys2Proof
end

section
/-! SUPPORT. The byte lanes of the initial state (40_state_initializer.md R102, R104). Key and nonce are both cut into
four-byte groups, group `k` making word `k`, so byte `j` lies in lane `j % 4` of word `j / 4`. -/

namespace Sys2Proof.Machine

theorem leBytes_getElem (w : Word) (i : Nat) (hi : i < 4) : (leBytes w)[i] = byteOf w i := by
  interval_cases i <;> rfl

theorem byteOf_le32 (b0 b1 b2 b3 : Byte) (i : Nat) (hi : i < 4) :
    byteOf (le32 b0 b1 b2 b3) i = #v[b0, b1, b2, b3][i] := by
  rw [← leBytes_getElem _ i hi]
  simp only [leBytes_le32]

/-- The word of four consecutive bytes holds each of them in the lane of its offset. -/
theorem byteOf_le32_group {n : Nat} (v : Vector Byte n) (m i : Nat) (hi : i < 4) (hm : m + 3 < n) :
    byteOf (le32 v[m] v[m + 1] v[m + 2] v[m + 3]) i = v[m + i] := by
  rw [byteOf_le32 _ _ _ _ i hi]
  interval_cases i <;> rfl

theorem byteOf_keyWord (key : Vector Byte 32) (j : Nat) (hj : j < 32) :
    byteOf (keyWord key ⟨j / 4, by omega⟩) (j % 4) = key[j] := by
  rw [keyWord, byteOf_le32_group key (4 * (j / 4)) (j % 4) (by omega) (by omega)]
  simp only [Nat.div_add_mod]

theorem byteOf_nonceWord (nonce : Vector Byte 12) (j : Nat) (hj : j < 12) :
    byteOf (nonceWord nonce ⟨j / 4, by omega⟩) (j % 4) = nonce[j] := by
  rw [nonceWord, byteOf_le32_group nonce (4 * (j / 4)) (j % 4) (by omega) (by omega)]
  simp only [Nat.div_add_mod]

/-- Settles O55: constants and counter are the definition's own words, and the bytes of key and nonce lie in their words
by `byteOf_keyWord` and `byteOf_nonceWord`. -/
theorem initialStateLayout : Obligations.InitialStateLayout := by
  intro key nonce ctr
  have hkey (j : Nat) (hj : j < 32) : byteOf (initState key nonce ctr)[4 + j / 4] (j % 4) = key[j] := by
    rw [initState_key key nonce ctr (j / 4) (by omega), byteOf_keyWord key j hj]
  have hnonce (j : Nat) (hj : j < 12) : byteOf (initState key nonce ctr)[13 + j / 4] (j % 4) = nonce[j] := by
    rw [initState_nonce key nonce ctr (j / 4) (by omega), byteOf_nonceWord nonce j hj]
  exact ⟨rfl, rfl, rfl, rfl, hkey, rfl, hnonce⟩

end Sys2Proof.Machine
end

section
/-! SUPPORT. The number of double rounds of a round count (41_permutation_engine.md R126): two more rounds, where the
byte can hold them, are one more double round. -/

namespace Sys2Proof.Machine

/-- `permute` with no round is the identity (R126). -/
@[simp] theorem permute_zero (s0 : Words) : permute s0 0 = s0 := rfl

/-- Two rounds more, without wrap of the byte, are one more double round at the end (R126). -/
theorem permute_add_two (s0 : Words) {r : Byte} (h : r.toNat + 2 < 256) :
    permute s0 (r + 2) = doubleRound (permute s0 r) := by
  have hnat : (r + 2).toNat = r.toNat + 2 := BitVec.toNat_add_of_lt h
  have hcount : (r + 2).toNat / 2 = r.toNat / 2 + 1 := by omega
  rw [permute, hcount, doubleRounds_succ, permute]

/-- Settles O59, by `permute_zero` and `permute_add_two`. -/
theorem twoMoreRoundsAreOneDoubleRound : Obligations.TwoMoreRoundsAreOneDoubleRound :=
  fun s0 => ⟨permute_zero s0, fun _ h => permute_add_two s0 h⟩

end Sys2Proof.Machine
end

section
/-! SUPPORT. The bytes of a finalized block (42_block_finalizer.md R140 to R143): lane `j` of word `i` stands at
`4i + j`, so a byte of the block is a lane of one sum. -/

namespace Sys2Proof.Machine

/-- Where the serialization puts byte `j` of word `i` (R142). -/
theorem serialize_getElem_lane (out : Words) (i j : Nat) (hi : i < 16) (hj : j < 4) :
    (serialize out)[4 * i + j] = byteOf out[i] j := by
  have hword : (4 * i + j) / 4 = i := by omega
  have hlane : (4 * i + j) % 4 = j := by omega
  rw [serialize_getElem out (4 * i + j) (by omega)]
  simp only [hword, hlane]

/-- A byte of the finalized block is a byte of the sum of the two words (R140, R141). -/
theorem finalize_getElem_lane (w s0 : Words) (i j : Nat) (hi : i < 16) (hj : j < 4) :
    (finalize w s0)[4 * i + j] = byteOf (w[i] + s0[i]) j := by
  rw [finalize, serialize_getElem_lane _ i j hi hj, addWords_getElem w s0 i hi]

/-- Settles O60: both clauses are `finalize_getElem_lane`, the second for the permuted initial state. -/
theorem finalizedBytesAreLittleEndianSums : Obligations.FinalizedBytesAreLittleEndianSums :=
  ⟨finalize_getElem_lane, fun key nonce ctr r =>
    finalize_getElem_lane (permute (initState key nonce ctr) r) (initState key nonce ctr)⟩

end Sys2Proof.Machine
end

section
/-! SUPPORT. The words of a command that takes no operand (30_encoding.md R71, R80): its row of R73 fixes every bit, so
of the words with its opcode one is the command and every other one is illegal. -/

namespace Sys2Proof

open Sys2Proof.Machine

variable {w : Word} {i j : Instr}

/-- No two rows of R73 share an opcode. -/
theorem encodingRow_eq_of_opField (h : opField (encodingRow j).pattern = opField (encodingRow i).pattern) :
    encodingRow j = encodingRow i := by
  revert h
  cases i <;> cases j <;> simp only [encodingRow] <;> decide

theorem Instr.Fits.eq_pattern (h : i.Fits w) (hmask : (encodingRow i).mask = BitVec.allOnes 32) :
    w = (encodingRow i).pattern := by
  have hrow := holds_iff_fits.mpr h
  simp only [EncodingRow.holds, hmask, BitVec.and_allOnes, Bool.and_eq_true, decide_eq_true_eq] at hrow
  exact hrow.1

/-- A word of the opcode that decodes at all fits the command's row, and the row fixes it (R80). -/
theorem answeredIllegal_of_ne_pattern (hmask : (encodingRow i).mask = BitVec.allOnes 32)
    (hop : opField w = opField (encodingRow i).pattern) (hne : w ≠ (encodingRow i).pattern) : AnsweredIllegal w := by
  cases hd : decode w with
  | error e => exact acceptCommand_of_error hd
  | ok j =>
    have hfit := fits_of_decode hd
    have hrow : encodingRow j = encodingRow i := encodingRow_eq_of_opField (hfit.op_eq.symm.trans hop)
    exact absurd (hrow ▸ hfit.eq_pattern (hrow ▸ hmask)) hne

end Sys2Proof
end

section
/-! SUPPORT. `NEXTB` with an equation per branch (43_keystream_cursor.md R150 to R152), and the frame of the other
commands on the generator fields (R151). -/

namespace Sys2Proof.Machine

variable {s t : State}

theorem execNextb_of_not_constructed (h : s.constructed = false) : execNextb s = raise .notConstructed s :=
  if_pos h

theorem execNextb_of_lt (hc : s.constructed = true) (h : s.cursor.val < 64) :
    execNextb s = serveByte ⟨s.cursor.val, h⟩ s := by
  simp [execNextb, hc, h]

theorem execNextb_of_exhausted (hc : s.constructed = true) (h64 : s.cursor = 64) (hw : s.wrapped = true)
    (ho : s.ctrOvf = .halt) : execNextb s = raise .counterExhausted s := by
  simp [execNextb, hc, h64, hw, ho]

theorem execNextb_of_refill (hc : s.constructed = true) (h64 : s.cursor = 64)
    (hw : ¬ (s.wrapped = true ∧ s.ctrOvf = .halt)) : execNextb s = serveByte 0 s.refill := by
  rw [execNextb, if_neg (by simp [hc]), dif_neg (by simp [h64]), if_neg hw]

theorem wrappedAfter_eq_ite (b : Bool) (ctr : Word) :
    wrappedAfter b ctr = if ctr = 0xFFFFFFFF then true else b := by
  cases b <;> simp [wrappedAfter]

/-- Only `NEXTB`, a successful `INITK` and `ZERO` write a generator field. -/
theorem exec_keeps_generator {i : Instr} (hn : i ≠ .nextb) (hk : i = .initk → legalRounds s.srounds = false)
    (hz : i ≠ .zero) (h : exec i s = .next t) : SameGenerator s t := by
  cases i with
  | wkey idx imm => rcases execWkey_next h with ⟨_, rfl⟩ | ⟨_, rfl⟩ <;> constructor <;> simp
  | wnonce idx imm => rcases execWnonce_next h with ⟨_, rfl⟩ | ⟨_, rfl⟩ <;> constructor <;> simp
  | wrounds imm => rcases execWrounds_next h with rfl; constructor <;> simp
  | initk =>
    rcases execInitk_next h with ⟨hl, rfl⟩ | ⟨_, rfl⟩
    · exact absurd hl (by simp [hk rfl])
    · exact (sameRecord_respond s _ _).toSameGenerator
  | inite => rcases execInite_next h with ⟨_, rfl⟩ | ⟨_, rfl⟩ <;> constructor <;> simp
  | nextb => exact absurd rfl hn
  | rdstat => rcases execRdstat_next h with rfl; exact (sameRecord_respond s _ _).toSameGenerator
  | rdctr => rcases execRdctr_next h with rfl; exact (sameRecord_respond s _ _).toSameGenerator
  | zero => exact absurd rfl hz

/-- `NEXTB` writes counter and buffer in the refill only, which is due at cursor 64. -/
theorem execNextb_keeps_counter_buf (h : execNextb s = .next t) (hc : s.cursor ≠ 64) :
    t.counter = s.counter ∧ t.buf = s.buf := by
  rcases execNextb_next h with ⟨_, rfl⟩ | ⟨_, _, rfl⟩ | ⟨_, h64, _⟩ | ⟨_, h64, _⟩
  · simp
  · simp
  · exact absurd h64 hc
  · exact absurd h64 hc

/-- Settles O34: each clause on `NEXTB` is the equation of its branch, and a refill leaves the cursor at 0. -/
theorem nextbServesTheNextByte : Obligations.NextbServesTheNextByte := by
  refine ⟨fun s h hc => execNextb_of_lt hc h, fun s hc h64 hw => ?_, fun s hc => execNextb_of_not_constructed hc,
    fun s hc h64 hw ho => execNextb_of_exhausted hc h64 hw ho, acceptCommand_of_ok (by decide),
    fun w hop hne => answeredIllegal_of_ne_pattern (i := .nextb) rfl hop hne⟩
  calc
    exec .nextb s = serveByte 0 s.refill := execNextb_of_refill hc h64 hw
    _ = exec .nextb s.refill := (execNextb_of_lt (s := s.refill) hc (by simp)).symm

/-- Settles O35: the refill's branch of `NEXTB`, and the frames `execNextb_keeps_counter_buf` and
`exec_keeps_generator`. -/
theorem nextbRefillsAtTheEndOfTheBuffer : Obligations.NextbRefillsAtTheEndOfTheBuffer := by
  refine ⟨fun s hc h64 hw => ?_, fun i s t h hchg => ?_⟩
  · have hgo : ¬ (s.wrapped = true ∧ s.ctrOvf = .halt) := by
      rintro ⟨hw', ho⟩
      simp [hw', ho] at hw
    rw [← wrappedAfter_eq_ite]
    exact execNextb_of_refill hc h64 hgo
  · by_contra hother
    simp only [not_or, not_and] at hother
    obtain ⟨hn, hk, hz⟩ := hother
    have hsame : t.counter = s.counter ∧ t.buf = s.buf := by
      by_cases hi : i = .nextb
      · subst hi
        exact execNextb_keeps_counter_buf h (hn rfl)
      · have hgen := exec_keeps_generator hi (fun e => absurd e hk) hz h
        exact ⟨hgen.counter, hgen.buf⟩
    exact hchg.elim (· hsame.1) (· hsame.2)

end Sys2Proof.Machine
end

section
/-! SUPPORT. A step that is no lifetime bound (10_state.md R24): it keeps every generator field and serves no byte, or
it executes a `NEXTB`. -/

namespace Sys2Proof.Machine

variable {s t : State} {w : Word} {e : Event}

theorem endsLifetime_of_accept (h : s.nextMove = .accept w) :
    s.endsLifetime = true ↔ decode w = .ok .zero ∨ (decode w = .ok .initk ∧ legalRounds s.srounds = true) := by
  simp only [State.endsLifetime, h]
  split <;> simp_all

theorem endsLifetime_of_arrive (h : s.nextMove = .arrive e) :
    s.endsLifetime = true ↔
      (∃ n b, e = .answer n (.ok b) ∧ s.awaits n = true) ∨ e = .reset ∨ ∃ a, e = .resetAndAnswer a := by
  simp only [State.endsLifetime, h]
  cases e with
  | answer n a => cases a <;> simp
  | _ => simp

/-- A step serves a byte only by accepting a `NEXTB`. -/
theorem servedByte_eq_none (t : State) (h : ¬ s.accepts .nextb) : servedByte s t = none := by
  unfold servedByte
  split
  next w r hm _ => exact if_neg fun hd => h ⟨w, hm, hd.1⟩
  next => rfl

theorem servedByte_respond_ok (hm : s.nextMove = .accept w) (hd : decode w = .ok .nextb) (u : State) (b : Byte) :
    servedByte s (u.respond .ok (zext32 b)) = some b := by
  simp [servedByte, hm, hd, zext32]

theorem servedByte_respond_error {c : StatusCode} (hc : c.bits ≠ StatusCode.ok.bits) (u : State) (d : Word) :
    servedByte s (u.respond c d) = none := by
  unfold servedByte
  split
  next w r _ hr =>
    obtain rfl : ⟨c.bits, d⟩ = r := by simpa using hr
    exact if_neg fun hd => hc hd.2
  next => rfl

theorem sameGenerator_takeCommand (s : State) : SameGenerator s s.takeCommand := by constructor <;> rfl

theorem sameGenerator_dropEvent (s : State) : SameGenerator s s.dropEvent := by constructor <;> rfl

/-- Only the answer that completes an `INITE`, and reset, write a generator field from outside. -/
theorem arrive_keeps_generator (hans : ¬ ∃ n b, e = .answer n (.ok b) ∧ s.awaits n = true)
    (hreset : ¬ (e = .reset ∨ ∃ a, e = .resetAndAnswer a)) : SameGenerator s (s.arrive e) := by
  cases e with
  | present w => constructor <;> rfl
  | answer n a =>
    rcases receiveAnswer_cases s n a with ⟨_, h⟩ | ⟨hw, b, rfl, _⟩ | ⟨_, _, h⟩
    · rw [State.arrive, h]; exact .refl s
    · exact absurd ⟨n, b, rfl, hw⟩ hans
    · rw [State.arrive, h]; constructor <;> rfl
  | reset => exact absurd (.inl rfl) hreset
  | resetAndAnswer a => exact absurd (.inr ⟨a, rfl⟩) hreset

/-- What a step inside a lifetime can do to the generator. -/
theorem step_inside_lifetime (h : step s = .next t) (hl : s.endsLifetime = false) :
    (SameGenerator s t ∧ servedByte s t = none) ∨
    ∃ w, s.nextMove = .accept w ∧ decode w = .ok .nextb ∧ execNextb s.takeCommand = .next t := by
  have hnot : ¬ s.endsLifetime = true := by simp [hl]
  rcases step_next h with ⟨w, hm, ha⟩ | ⟨e, hm, rfl⟩ | ⟨hm, rfl⟩
  · rw [endsLifetime_of_accept hm, not_or] at hnot
    obtain ⟨hz, hk⟩ := hnot
    by_cases hd : decode w = .ok .nextb
    · exact .inr ⟨w, hm, hd, by rwa [acceptCommand_of_ok hd] at ha⟩
    · refine .inl ⟨(sameGenerator_takeCommand s).trans ?_,
        servedByte_eq_none t fun hacc => hd ((accepts_iff_of_accept hm).mp hacc)⟩
      rcases acceptCommand_next ha with ⟨i, hi, hexec⟩ | ⟨_, _, rfl⟩
      · simp only [hi, Except.ok.injEq] at hd hk hz
        exact exec_keeps_generator hd (fun hinitk => by simpa [hinitk] using hk) hz hexec
      · exact (sameRecord_respond _ _ _).toSameGenerator
  · rw [endsLifetime_of_arrive hm, not_or] at hnot
    obtain ⟨hans, hreset⟩ := hnot
    exact .inl ⟨(sameGenerator_dropEvent s).trans (arrive_keeps_generator hans hreset),
      servedByte_eq_none _ (not_accepts_of_arrive .nextb hm)⟩
  · exact .inl ⟨.refl _, servedByte_eq_none _ (not_accepts_of_wait .nextb hm)⟩

end Sys2Proof.Machine
end

section
/-! SUPPORT. The position of a generator in its keystream (43_keystream_cursor.md R155): how many blocks it has drawn
and how many bytes it has served fix every generator field. A refill draws a block and serves nothing, so the end of
`NEXTB` alone moves the second number. -/

namespace Sys2Proof.Machine

variable {key : Vector Byte 32} {nonce : Vector Byte 12} {r : Byte} {q k n : Nat} {s t : State}

/-- The generator of `(key, nonce, r)` has drawn `q` blocks and served `k` bytes of them. -/
structure State.StreamAt (s : State) (key : Vector Byte 32) (nonce : Vector Byte 12) (r : Byte) (q k : Nat) : Prop where
  constructed : s.constructed = true
  key_eq : s.key = key
  nonce_eq : s.nonce = nonce
  rounds_eq : s.rounds = r
  counter_eq : s.counter = BitVec.ofNat 32 (1 + q)
  wrapped_iff : s.wrapped = true ↔ 2 ^ 32 - 1 ≤ q
  /-- What is served and what is left in the buffer make up the blocks drawn. -/
  cursor_eq : 64 * q + s.cursor.val = 64 + k
  buf_eq : s.cursor.val < 64 → s.buf = chachaBlock key nonce (BitVec.ofNat 32 q) r

theorem State.Fresh.streamAt (h : s.Fresh) : s.StreamAt s.key s.nonce s.rounds 0 0 where
  constructed := h.constructed
  key_eq := rfl
  nonce_eq := rfl
  rounds_eq := rfl
  counter_eq := h.counter
  wrapped_iff := by simp [h.wrapped]
  cursor_eq := by simp [h.cursor]
  buf_eq hlt := by simp [h.cursor] at hlt

namespace State.StreamAt

theorem of_sameGenerator (h : s.StreamAt key nonce r q k) (hst : SameGenerator s t) : t.StreamAt key nonce r q k where
  constructed := hst.constructed.trans h.constructed
  key_eq := hst.key.trans h.key_eq
  nonce_eq := hst.nonce.trans h.nonce_eq
  rounds_eq := hst.rounds.trans h.rounds_eq
  counter_eq := hst.counter.trans h.counter_eq
  wrapped_iff := hst.wrapped ▸ h.wrapped_iff
  cursor_eq := hst.cursor ▸ h.cursor_eq
  buf_eq hlt := hst.buf.trans (h.buf_eq (hst.cursor ▸ hlt))

/-- The next refill leaves `wrapped` set exactly if it is the `2^32 - 1`st or a later one (R29, R154). -/
theorem wrappedAfter_iff (h : s.StreamAt key nonce r q k) :
    wrappedAfter s.wrapped s.counter = true ↔ 2 ^ 32 - 1 ≤ q + 1 := by
  have hlast : s.counter = 0xFFFFFFFF ↔ (1 + q) % 2 ^ 32 = 2 ^ 32 - 1 := by
    rw [h.counter_eq, ← BitVec.toNat_inj, BitVec.toNat_ofNat]
    rfl
  rw [wrappedAfter, Bool.or_eq_true, decide_eq_true_eq, h.wrapped_iff, hlast]
  omega

/-- A refill draws one block and serves nothing (R151). -/
theorem refill (h : s.StreamAt key nonce r q k) (h64 : s.cursor = 64) : s.refill.StreamAt key nonce r (q + 1) k where
  constructed := h.constructed
  key_eq := h.key_eq
  nonce_eq := h.nonce_eq
  rounds_eq := h.rounds_eq
  counter_eq := by
    rw [refill_counter, h.counter_eq]
    exact (BitVec.ofNat_add (1 + q) 1).symm
  wrapped_iff := h.wrappedAfter_iff
  cursor_eq := by
    have hcur := h.cursor_eq
    simp only [h64, refill_cursor, Fin.coe_ofNat_eq_mod] at hcur ⊢
    omega
  buf_eq _ := by rw [refill_buf, h.key_eq, h.nonce_eq, h.rounds_eq, h.counter_eq, Nat.add_comm 1 q]

/-- Moving the cursor past a byte serves it and draws nothing (R150). -/
theorem advance (h : s.StreamAt key nonce r q k) (hlt : s.cursor.val < 64) :
    (s.advance ⟨s.cursor.val, hlt⟩).StreamAt key nonce r q (k + 1) where
  constructed := h.constructed
  key_eq := h.key_eq
  nonce_eq := h.nonce_eq
  rounds_eq := h.rounds_eq
  counter_eq := h.counter_eq
  wrapped_iff := h.wrapped_iff
  cursor_eq := by
    have hcur := h.cursor_eq
    simp only [advance_cursor, Fin.val_succ]
    omega
  buf_eq _ := h.buf_eq hlt

/-- The byte at the cursor is the next byte of the keystream (R155). -/
theorem byteAtCursor (h : s.StreamAt key nonce r q k) (hlt : s.cursor.val < 64) :
    s.buf[s.cursor.val] = keystreamByte key nonce r k := by
  have hcur := h.cursor_eq
  obtain rfl : q = 1 + k / 64 := by omega
  have hc : s.cursor.val = k % 64 := by omega
  simp only [keystreamByte, h.buf_eq hlt, hc]

/-- A step inside a lifetime serves nothing, or serves the next byte of the keystream, drawing a block if the cursor
stands at 64. -/
theorem after_step (h : s.StreamAt key nonce r q k) (hs : step s = .next t) (hl : s.endsLifetime = false) :
    (servedByte s t = none ∧ t.StreamAt key nonce r q k) ∨
    (servedByte s t = some (keystreamByte key nonce r k) ∧
      t.StreamAt key nonce r (if s.cursor = 64 then q + 1 else q) (k + 1)) := by
  rcases step_inside_lifetime hs hl with ⟨hsame, hnone⟩ | ⟨w, hm, hd, hexec⟩
  · exact .inl ⟨hnone, h.of_sameGenerator hsame⟩
  have hu := h.of_sameGenerator (sameGenerator_takeCommand s)
  rcases execNextb_next hexec with ⟨hc, _⟩ | ⟨_, hlt, rfl⟩ | ⟨_, _, _, _, rfl⟩ | ⟨_, h64, _, rfl⟩
  · exact absurd hu.constructed (Bool.eq_false_iff.mp hc)
  · have hne : s.cursor ≠ 64 := fun h64 => by simp [h64] at hlt
    rw [servedByte_respond_ok hm hd, hu.byteAtCursor hlt, if_neg hne]
    exact .inr ⟨rfl, (hu.advance hlt).of_sameGenerator (sameRecord_respond _ _ _).toSameGenerator⟩
  · exact .inl ⟨servedByte_respond_error (by decide) _ _,
      hu.of_sameGenerator (sameRecord_respond _ _ _).toSameGenerator⟩
  · have hdrawn := hu.refill h64
    have hbyte := hdrawn.byteAtCursor (by simp)
    rw [servedByte_respond_ok hm hd, if_pos (show s.cursor = 64 from h64)]
    exact .inr ⟨congrArg some hbyte,
      (hdrawn.advance (by simp)).of_sameGenerator (sameRecord_respond _ _ _).toSameGenerator⟩

/-- The bytes served inside a lifetime are consecutive bytes of the keystream. -/
theorem bytesServed_eq (h : s.StreamAt key nonce r q k) (hu : Undisturbed n s) :
    ∃ m, bytesServed n s = (List.range' k m).map (keystreamByte key nonce r) := by
  induction n generalizing s q k with
  | zero => exact ⟨0, rfl⟩
  | succ n ih =>
    obtain ⟨hl, hrest⟩ := hu
    cases hs : step s with
    | fault f => cases f
    | refused _ => exact ⟨0, by rw [bytesServed, hs]; rfl⟩
    | next t =>
      rw [bytesServed_succ hs]
      rcases h.after_step hs hl with ⟨hnone, ht⟩ | ⟨hsome, ht⟩
      · obtain ⟨m, hm⟩ := ih ht (hrest t hs)
        exact ⟨m, by rw [hnone, hm]; rfl⟩
      · obtain ⟨m, hm⟩ := ih ht (hrest t hs)
        refine ⟨m + 1, ?_⟩
        rw [hsome, hm, List.range'_succ]
        rfl

end State.StreamAt

/-- R155: a fresh generator serves byte `k` of its keystream as its `k`-th byte. -/
theorem keystreamByte_of_bytesServed (hf : s.Fresh) (hu : Undisturbed n s) {b : Byte}
    (hb : (bytesServed n s)[k]? = some b) : b = keystreamByte s.key s.nonce s.rounds k := by
  obtain ⟨m, hm⟩ := hf.streamAt.bytesServed_eq hu
  rw [hm, List.getElem?_map, Option.map_eq_some_iff] at hb
  obtain ⟨j, hj, rfl⟩ := hb
  obtain ⟨_, rfl⟩ : k < m ∧ k = j := by
    simpa [← List.range_eq_range', List.getElem?_eq_some_iff] using hj
  rfl

/-- Settles O40: both bytes are byte `k` of the one keystream, by `keystreamByte_of_bytesServed`. -/
theorem equalSeedsServeEqualBytes : Obligations.EqualSeedsServeEqualBytes := by
  intro s s' n n' hf hf' hkey hnonce hrounds hu hu' k b b' hb hb'
  have hleft := keystreamByte_of_bytesServed hf hu hb
  have hright := keystreamByte_of_bytesServed hf' hu' hb'
  rw [hkey, hnonce, hrounds] at hright
  exact hleft.trans hright.symm

end Sys2Proof.Machine
end

section
/-! SUPPORT. The words of a command with operands (30_encoding.md R71, R80, R90): the composed word with operands its
row allows is the command, and a word of the opcode that does not fit the row is illegal. -/

namespace Sys2Proof

open Sys2Proof.Machine

variable {w : Word} {i : Instr} {idx imm : Byte}

/-- The fixed ones of a row are opcode bits (R73). -/
theorem encodingRow_pattern_opcodeBits (i : Instr) : (encodingRow i).pattern &&& 0x0FFFFFFF = 0 := by
  cases i <;> simp only [encodingRow] <;> decide

/-- The word composed of a row's opcode bits and operands that the row allows fits the row. -/
theorem fits_commandWord (hidx : idx.toNat ≤ (encodingRow i).lastIdx)
    (himm : immField (encodingRow i).mask ≠ 0 → imm = 0) :
    i.Fits (commandWord (encodingRow i).pattern idx imm) := by
  have hop := encodingRow_pattern_opcodeBits i
  refine ⟨rsvField_commandWord hop idx imm, opField_commandWord _ idx imm, ?_, ?_⟩
  · rwa [idxField_commandWord hop]
  · rwa [immField_commandWord hop]

theorem decode_commandWord (hidx : idx.toNat ≤ (encodingRow i).lastIdx)
    (himm : immField (encodingRow i).mask ≠ 0 → imm = 0) :
    decode (commandWord (encodingRow i).pattern idx imm) = .ok (i.withOperands idx imm) := by
  have hop := encodingRow_pattern_opcodeBits i
  rw [decode_of_fits (fits_commandWord hidx himm), idxField_commandWord hop, immField_commandWord hop]

/-- Of the words with a command's opcode, those that do not fit its row decode to no command at all. -/
theorem answeredIllegal_of_not_fits (hop : opField w = opField (encodingRow i).pattern) (h : ¬ i.Fits w) :
    AnsweredIllegal w := by
  obtain ⟨e, he⟩ : ∃ e, decode w = .error e := decode_error_of_not_fits fun j hfit => by
    have hrow : encodingRow j = encodingRow i := encodingRow_eq_of_opField (hfit.op_eq.symm.trans hop)
    exact h (holds_iff_fits.mp (hrow ▸ holds_iff_fits.mpr hfit))
  exact acceptCommand_of_error he

end Sys2Proof
end

section
/-! SUPPORT. The staging writes, construction and destruction with an equation per branch (44_construction.md R170 to
R188). -/

namespace Sys2Proof.Machine

variable {s : State} {idx : Byte}

/-- The round counts that R176 refuses. -/
theorem legalRounds_eq_false_iff {r : Byte} : legalRounds r = false ↔ r = 0 ∨ r.toNat % 2 = 1 := by
  rw [← Bool.not_eq_true, legalRounds_iff, not_and_or, not_not, ← ne_eq, Nat.mod_two_ne_zero]

theorem execWkey_of_lt (h : idx.toNat < 32) (imm : Byte) (s : State) :
    execWkey idx imm s = succeed 0 (s.writeSkey ⟨idx.toNat, h⟩ imm) := by
  rw [execWkey, keyIndex_of_lt h]

theorem execWkey_of_not_lt (h : ¬ idx.toNat < 32) (imm : Byte) (s : State) :
    execWkey idx imm s = raise .illegalCommand s := by
  rw [execWkey, keyIndex_of_not_lt h]

theorem execWnonce_of_lt (h : idx.toNat < 12) (imm : Byte) (s : State) :
    execWnonce idx imm s = succeed 0 (s.writeSnonce ⟨idx.toNat, h⟩ imm) := by
  rw [execWnonce, nonceIndex_of_lt h]

theorem execWnonce_of_not_lt (h : ¬ idx.toNat < 12) (imm : Byte) (s : State) :
    execWnonce idx imm s = raise .illegalCommand s := by
  rw [execWnonce, nonceIndex_of_not_lt h]

theorem execInitk_of_legal (h : legalRounds s.srounds = true) :
    execInitk s = succeed 0 (s.construct s.skey s.snonce) := if_pos h

theorem execInitk_of_illegal (h : legalRounds s.srounds = false) : execInitk s = raise .configError s :=
  if_neg (by simp [h])

theorem execInite_of_legal (h : legalRounds s.srounds = true) : execInite s = .next s.requestEntropy := if_pos h

theorem execInite_of_illegal (h : legalRounds s.srounds = false) : execInite s = raise .configError s :=
  if_neg (by simp [h])

/-- Settles O16: the two branches of `execWkey`, and the words by `decode_commandWord` and
`answeredIllegal_of_not_fits`. -/
theorem wkeyWritesOneStagingByte : Obligations.WkeyWritesOneStagingByte := by
  refine ⟨fun idx imm s => ⟨fun h => execWkey_of_lt h imm s, fun h => execWkey_of_not_lt (by omega) imm s⟩,
    fun idx imm h => acceptCommand_of_ok (decode_commandWord (i := .wkey 0 0) (Nat.le_of_lt_succ h) (absurd rfl)),
    fun w hop hbad => answeredIllegal_of_not_fits (i := .wkey 0 0) hop fun hfit => ?_⟩
  exact hbad.elim (· hfit.rsv_eq) (Nat.not_lt_of_le hfit.idx_le)

/-- Settles O17: the two branches of `execWnonce`, and the words by `decode_commandWord` and
`answeredIllegal_of_not_fits`. -/
theorem wnonceWritesOneStagingByte : Obligations.WnonceWritesOneStagingByte := by
  refine ⟨fun idx imm s => ⟨fun h => execWnonce_of_lt h imm s, fun h => execWnonce_of_not_lt (by omega) imm s⟩,
    fun idx imm h => acceptCommand_of_ok (decode_commandWord (i := .wnonce 0 0) (Nat.le_of_lt_succ h) (absurd rfl)),
    fun w hop hbad => answeredIllegal_of_not_fits (i := .wnonce 0 0) hop fun hfit => ?_⟩
  exact hbad.elim (· hfit.rsv_eq) (Nat.not_lt_of_le hfit.idx_le)

/-- Settles O18: `WROUNDS` has one branch, its word is composed with index 0, and its row allows no other index. -/
theorem wroundsStoresAnyByte : Obligations.WroundsStoresAnyByte := by
  refine ⟨fun _ _ => rfl,
    fun imm => acceptCommand_of_ok (decode_commandWord (i := .wrounds 0) (idx := 0) (Nat.le_refl 0) (absurd rfl)),
    fun w hop hbad => answeredIllegal_of_not_fits (i := .wrounds 0) hop fun hfit => ?_⟩
  exact hbad.elim (· hfit.rsv_eq) (· (BitVec.eq_of_toNat_eq (Nat.le_zero.mp hfit.idx_le)))

/-- Settles O20: a count that R176 refuses is no legal one, and both constructions then raise `CONFIG_ERROR`. -/
theorem constructionChecksTheRoundCountFirst : Obligations.ConstructionChecksTheRoundCountFirst := by
  intro s h
  have hl := legalRounds_eq_false_iff.mpr h
  exact ⟨execInitk_of_illegal hl, execInite_of_illegal hl⟩

/-- Settles O21: the two branches of `execInitk`, and the words of a command with no operand. -/
theorem initkConstructsFromStaging : Obligations.InitkConstructsFromStaging :=
  ⟨fun _ h0 h2 => execInitk_of_legal (legalRounds_iff.mpr ⟨h0, h2⟩),
    fun s h => (constructionChecksTheRoundCountFirst s h).1, acceptCommand_of_ok (by decide),
    fun _ hop hne => answeredIllegal_of_ne_pattern (i := .initk) rfl hop hne⟩

/-- Settles O22: the two branches of `execInite`, and the words of a command with no operand. -/
theorem initeRequestsEntropyAndWaits : Obligations.IniteRequestsEntropyAndWaits :=
  ⟨fun _ h0 h2 => execInite_of_legal (legalRounds_iff.mpr ⟨h0, h2⟩),
    fun s h => (constructionChecksTheRoundCountFirst s h).2, acceptCommand_of_ok (by decide),
    fun _ hop hne => answeredIllegal_of_ne_pattern (i := .inite) rfl hop hne⟩

/-- Settles O28: `ZERO` has one branch, which clears the record and responds. -/
theorem zeroReturnsToTheResetState : Obligations.ZeroReturnsToTheResetState :=
  ⟨fun s => ⟨_, rfl, (sameRecord_reset_clear s).trans (sameRecord_respond s.clear .ok 0), rfl⟩,
    acceptCommand_of_ok (by decide), fun _ hop hne => answeredIllegal_of_ne_pattern (i := .zero) rfl hop hne⟩

end Sys2Proof.Machine
end

section
/-! SUPPORT. The steps of a waiting core (44_construction.md R184 to R186): a presented word joins the port, and the
answer to the waiting `INITE`'s request completes it or ends it with `ENTROPY_ERROR`. -/

namespace Sys2Proof.Machine

variable {s t u : State} {a : EntropyAnswer} {es : List Event}

theorem dropEvent_eq {e : Event} (h : s.events = e :: es) : s.dropEvent = { s with events := es } := by
  rw [State.dropEvent, h, List.tail_cons]

/-- A waiting core takes no word, so its step is the next outside event. -/
theorem step_of_waiting {e : Event} (hp : s.pending = .waitEntropy) (he : s.events = e :: es) :
    step s = .next (s.dropEvent.arrive e) :=
  step_of_arrive (nextMove_arrive_iff.mpr ⟨by simp [hp], es, he⟩)

theorem receiveAnswer_of_ok {n : Nat} (h : s.awaits n = true) (e : Vector Byte 44) :
    s.receiveAnswer n (.ok e) = s.completeEntropy e := if_pos h

theorem receiveAnswer_of_failed {n : Nat} (h : s.awaits n = true) (ha : a = .fail ∨ ∃ m, a = .short m) :
    s.receiveAnswer n a = s.failEntropy := by
  rcases ha with rfl | ⟨m, rfl⟩
  · exact if_pos h
  · exact if_pos h

theorem step_of_answer_ok {e : Vector Byte 44} (hp : s.pending = .waitEntropy)
    (he : s.events = .answer s.requests.length (.ok e) :: es) : step s = .next (s.dropEvent.completeEntropy e) := by
  have haw : s.dropEvent.awaits s.requests.length = true := awaits_iff.mpr ⟨hp, rfl⟩
  rw [step_of_waiting hp he, State.arrive, receiveAnswer_of_ok haw]

theorem step_of_answer_failed (hp : s.pending = .waitEntropy) (he : s.events = .answer s.requests.length a :: es)
    (ha : a = .fail ∨ ∃ n, a = .short n) : step s = .next s.dropEvent.failEntropy := by
  have haw : s.dropEvent.awaits s.requests.length = true := awaits_iff.mpr ⟨hp, rfl⟩
  rw [step_of_waiting hp he, State.arrive, receiveAnswer_of_failed haw ha]

/-- Settles O23, by `step_of_answer_ok` and the two parts of the entropy bytes. -/
theorem entropyAnswerCompletesInite : Obligations.EntropyAnswerCompletesInite := by
  intro s e es key nonce hp he hkey hnonce
  rw [step_of_answer_ok hp he, dropEvent_eq he, State.completeEntropy, entropyKey_eq hkey, entropyNonce_eq hnonce]
  rfl

/-- Settles O24, by `step_of_answer_failed`. -/
theorem entropyFailureKeepsEveryField : Obligations.EntropyFailureKeepsEveryField := by
  intro s a es hp he ha
  rw [step_of_answer_failed hp he ha, dropEvent_eq he]
  rfl

/-- A construction writes every generator field, from its key, its nonce and the staged round count only (R178). -/
theorem sameGenerator_construct (h : t.srounds = s.srounds) (key : Vector Byte 32) (nonce : Vector Byte 12) :
    SameGenerator (s.construct key nonce) (t.construct key nonce) where
  constructed := rfl
  key := rfl
  nonce := rfl
  rounds := h
  counter := rfl
  buf := rfl
  cursor := rfl
  wrapped := rfl

theorem SameGenerator.respond (h : SameGenerator s t) (c : StatusCode) (d : Word) :
    SameGenerator (s.respond c d) (t.respond c d) := { h with }

theorem SameGenerator.endWait (h : SameGenerator s t) : SameGenerator s.endWait t.endWait := { h with }

/-- Settles O26: both constructions are a `State.construct` from equal inputs, by `sameGenerator_construct`. -/
theorem reconstructionForgetsTheOldGenerator : Obligations.ReconstructionForgetsTheOldGenerator := by
  intro s s' t t' hr h0 h2
  refine ⟨fun hkey hnonce h h' => ?_, fun e es es' hp hp' he he' h h' => ?_⟩
  · have hl : legalRounds s.srounds = true := legalRounds_iff.mpr ⟨h0, h2⟩
    obtain rfl := succeed_eq_next_iff.mp ((execInitk_of_legal hl).symm.trans h)
    obtain rfl := succeed_eq_next_iff.mp ((execInitk_of_legal (hr ▸ hl)).symm.trans h')
    rw [hkey, hnonce]
    exact ⟨(sameGenerator_construct hr s.skey s.snonce).respond .ok 0, rfl⟩
  · cases (step_of_answer_ok hp he).symm.trans h
    cases (step_of_answer_ok hp' he').symm.trans h'
    have hgen := sameGenerator_construct (s := s.dropEvent) (t := s'.dropEvent) hr (entropyKey e) (entropyNonce e)
    exact ⟨hgen.endWait.respond .ok 0, rfl⟩

/-- A wait through any presented words that ends with a failed answer writes no field but `pending`, and is answered by
`ENTROPY_ERROR` alone. -/
theorem failed_wait_keeps_record {ws : List Word} (hp : u.pending = .waitEntropy)
    (he : u.events = ws.map Event.present ++ .answer u.requests.length a :: es)
    (ha : a = .fail ∨ ∃ n, a = .short n) (h : Steps (ws.length + 1) u t) :
    SameRecord u.endWait t ∧ t.responses = u.responses ++ [⟨0x3, 0⟩] := by
  induction ws generalizing u with
  | nil =>
    obtain ⟨v, hv, rfl⟩ := h
    cases (step_of_answer_failed hp he ha).symm.trans hv
    exact ⟨{ sameRecord_respond u.dropEvent.endWait .entropyError 0 with }, rfl⟩
  | cons w ws ih =>
    obtain ⟨v, hv, hrest⟩ := h
    cases (step_of_waiting hp he).symm.trans hv
    have htail : u.events.tail = ws.map Event.present ++ .answer u.requests.length a :: es := by rw [he]; rfl
    obtain ⟨hsame, hresp⟩ := ih (u := u.dropEvent.presentCommand w) hp htail hrest
    exact ⟨{ hsame with }, hresp⟩

/-- An idle core that begins a wait and ends it at once has its fields back. -/
theorem sameRecord_requestEntropy_endWait (hp : s.pending = .idle) : SameRecord s s.requestEntropy.endWait := by
  constructor
  · constructor <;> rfl
  · rfl
  · rfl
  · rfl
  · exact hp.symm

/-- Settles O27: `CONFIG_ERROR` writes a response only, and the wait of a failed `INITE` is
`failed_wait_keeps_record`. -/
theorem failedConstructionChangesNoField : Obligations.FailedConstructionChangesNoField := by
  refine fun s => ⟨fun t hr h => ?_, fun u t ws es a hp h0 h2 he ha h hsteps => ?_⟩
  · obtain ⟨hk, hn⟩ := constructionChecksTheRoundCountFirst s hr
    rcases h with h | h
    · cases hk.symm.trans h
      exact sameRecord_respond s .configError 0
    · cases hn.symm.trans h
      exact sameRecord_respond s .configError 0
  · cases (execInite_of_legal (legalRounds_iff.mpr ⟨h0, h2⟩)).symm.trans h
    obtain ⟨hsame, hresp⟩ := failed_wait_keeps_record (u := s.requestEntropy) rfl he ha hsteps
    exact ⟨(sameRecord_requestEntropy_endWait hp).trans hsame, hresp⟩

end Sys2Proof.Machine
end

section
/-! SUPPORT. The four bytes of the status word (45_status.md R200): R200's shifts make it the little-endian word of a
byte of flag bits, the cursor, `ROUNDS` and `SROUNDS`, so each field lies in one byte lane. The two commands that read
the status and the counter (R201, R202). -/

namespace Sys2Proof.Machine

/-- Byte 0 of the status word: five reserved bits, then `OVF_HALT`, `WRAPPED` and `CONSTRUCTED` (R200). -/
def statusFlags (ovf wrapped constructed : Bool) : Byte :=
  0#5 ++ BitVec.ofBool ovf ++ BitVec.ofBool wrapped ++ BitVec.ofBool constructed

theorem zext32_statusFlags : ∀ ovf wrapped constructed : Bool,
    zext32 (statusFlags ovf wrapped constructed) =
      (bit32 ovf <<< 2) ||| (bit32 wrapped <<< 1) ||| bit32 constructed := by
  decide

theorem statusFlags_fields : ∀ ovf wrapped constructed : Bool,
    (statusFlags ovf wrapped constructed).getLsbD 0 = constructed ∧
    (statusFlags ovf wrapped constructed).getLsbD 1 = wrapped ∧
    (statusFlags ovf wrapped constructed).getLsbD 2 = ovf ∧
    (statusFlags ovf wrapped constructed).extractLsb' 3 5 = 0 := by
  decide

theorem ovfHalt_eq_true_iff {p : CtrOvf} : ovfHalt p = true ↔ p = .halt := by
  cases p <;> decide

/-- A cursor is at most 64, so it fits in the low seven bits of its byte. -/
theorem cursorByte_fields : ∀ c : Fin 65,
    zext32 (BitVec.ofNat 8 c.val) = BitVec.ofNat 32 c.val ∧
    ((BitVec.ofNat 8 c.val).extractLsb' 0 7).toNat = c.val ∧ (BitVec.ofNat 8 c.val).getLsbD 7 = false := by
  decide

theorem statusWord_eq_le32 (s : State) :
    s.statusWord = le32 (statusFlags (ovfHalt s.ctrOvf) s.wrapped s.constructed) (BitVec.ofNat 8 s.cursor.val)
      s.rounds s.srounds := by
  have lanes_reversed (a b c d : Word) : a ||| b ||| c ||| d = d ||| c ||| b ||| a := by ac_rfl
  obtain ⟨hcursor, -, -⟩ := cursorByte_fields s.cursor
  rw [le32, zext32_statusFlags, hcursor, lanes_reversed, State.statusWord]
  simp only [BitVec.or_assoc]

/-- The status word at power-up, whatever the outside events to come. -/
theorem statusWord_powerUp (p : CtrOvf) (es : List Event) :
    (powerUp p es).statusWord = le32 (statusFlags (ovfHalt p) false false) 64 0 20 :=
  statusWord_eq_le32 (powerUp p es)

/-- A bit of byte `j` is a bit of the word. -/
theorem getLsbD_byteOf (w : Word) (j : Nat) {k : Nat} (hk : k < 8) :
    (byteOf w j).getLsbD k = w.getLsbD (8 * j + k) := by
  simp [byteOf, hk]

/-- A field inside byte `j` is a field of the word. -/
theorem extractLsb'_byteOf (w : Word) (j : Nat) {k n : Nat} (hk : k + n ≤ 8) :
    (byteOf w j).extractLsb' k n = w.extractLsb' (8 * j + k) n := by
  apply BitVec.eq_of_getLsbD_eq
  intro i hi
  rw [BitVec.getLsbD_extractLsb', BitVec.getLsbD_extractLsb', getLsbD_byteOf w j (by omega), Nat.add_assoc]

/-- The four bytes of the status word, lowest first. -/
theorem byteOf_statusWord (s : State) :
    byteOf s.statusWord 0 = statusFlags (ovfHalt s.ctrOvf) s.wrapped s.constructed ∧
    byteOf s.statusWord 1 = BitVec.ofNat 8 s.cursor.val ∧
    byteOf s.statusWord 2 = s.rounds ∧ byteOf s.statusWord 3 = s.srounds := by
  rw [statusWord_eq_le32]
  exact ⟨byteOf_le32 _ _ _ _ 0 (by decide), byteOf_le32 _ _ _ _ 1 (by decide), byteOf_le32 _ _ _ _ 2 (by decide),
    byteOf_le32 _ _ _ _ 3 (by decide)⟩

/-- Settles O49: each field lies in one byte of the status word, by `byteOf_statusWord`, and the two words at power-up
are evaluated. -/
theorem statusWordFields : Obligations.StatusWordFields := by
  refine ⟨fun s => ?_, fun es => ⟨?_, ?_⟩⟩
  · obtain ⟨hflags, hcursor, hrounds, hsrounds⟩ := byteOf_statusWord s
    obtain ⟨hconstructed, hwrapped, hovf, hreserved⟩ := statusFlags_fields (ovfHalt s.ctrOvf) s.wrapped s.constructed
    obtain ⟨-, hcur, htop⟩ := cursorByte_fields s.cursor
    rw [← hflags, getLsbD_byteOf _ _ (by decide)] at hconstructed hwrapped hovf
    rw [← hflags, extractLsb'_byteOf _ _ (by decide)] at hreserved
    rw [← hcursor, extractLsb'_byteOf _ _ (by decide)] at hcur
    rw [← hcursor, getLsbD_byteOf _ _ (by decide)] at htop
    rw [← ovfHalt_eq_true_iff, ← hovf]
    exact ⟨hconstructed, hwrapped, Iff.rfl, hreserved, hcur, htop, hrounds, hsrounds⟩
  · exact (statusWord_powerUp .wrap es).trans (by decide)
  · exact (statusWord_powerUp .halt es).trans (by decide)

/-- Settles O50: `RDSTAT` has one branch, and its word and the illegal ones are those of a command with no operand. -/
theorem rdstatAnswersTheStatusWord : Obligations.RdstatAnswersTheStatusWord :=
  ⟨fun _ => rfl, acceptCommand_of_ok (by decide),
    fun _ hop hne => answeredIllegal_of_ne_pattern (i := .rdstat) rfl hop hne⟩

/-- Settles O51, as O50: `RDCTR` has one branch and no operand. -/
theorem rdctrAnswersTheCounter : Obligations.RdctrAnswersTheCounter :=
  ⟨fun _ => rfl, acceptCommand_of_ok (by decide),
    fun _ hop hne => answeredIllegal_of_ne_pattern (i := .rdctr) rfl hop hne⟩

end Sys2Proof.Machine
end

section
/-! SUPPORT. Which command raises which error, and in which states (60_exceptions.md R212 to R216): one relation, and
what a command or an outside event did where its response is an error (R211). -/

namespace Sys2Proof.Machine

variable {s t : State} {i : Instr}

/-- The command raises the error in this state (R212, R213, R215, R216). `ENTROPY_ERROR` stands in no case: it comes
with an answer to a waiting `INITE`, and no command ends with it when it is executed (R214). -/
inductive Raises : Instr → State → StatusCode → Prop where
  /-- R212, where `exec` is given an index past the last key byte. -/
  | keyIndex {idx imm : Byte} {s : State} (h : ¬ idx.toNat < 32) : Raises (.wkey idx imm) s .illegalCommand
  /-- R212, where `exec` is given an index past the last nonce byte. -/
  | nonceIndex {idx imm : Byte} {s : State} (h : ¬ idx.toNat < 12) : Raises (.wnonce idx imm) s .illegalCommand
  /-- R213 for a construction from the staging registers. -/
  | initkRounds {s : State} (h : legalRounds s.srounds = false) : Raises .initk s .configError
  /-- R213 for a construction from entropy. -/
  | initeRounds {s : State} (h : legalRounds s.srounds = false) : Raises .inite s .configError
  /-- R215. -/
  | noGenerator {s : State} (h : s.constructed = false) : Raises .nextb s .notConstructed
  /-- R216. -/
  | exhausted {s : State} (hc : s.constructed = true) (h64 : s.cursor = 64) (hw : s.wrapped = true)
      (ho : s.ctrOvf = .halt) : Raises .nextb s .counterExhausted

theorem nextb_of_raises_notConstructed (h : Raises i s .notConstructed) : i = .nextb ∧ s.constructed = false := by
  cases h with
  | noGenerator h => exact ⟨rfl, h⟩

theorem nextb_of_raises_counterExhausted (h : Raises i s .counterExhausted) :
    i = .nextb ∧ s.constructed = true ∧ s.cursor = 64 ∧ s.wrapped = true ∧ s.ctrOvf = .halt := by
  cases h with
  | exhausted hc h64 hw ho => exact ⟨rfl, hc, h64, hw, ho⟩

/-- A command that raises an error answers it and writes no state (R211). -/
theorem exec_of_raises {c : StatusCode} (h : Raises i s c) : exec i s = raise c s := by
  cases h with
  | keyIndex h => exact execWkey_of_not_lt h _ s
  | nonceIndex h => exact execWnonce_of_not_lt h _ s
  | initkRounds h => exact execInitk_of_illegal h
  | initeRounds h => exact execInite_of_illegal h
  | noGenerator h => exact execNextb_of_not_constructed h
  | exhausted hc h64 hw ho => exact execNextb_of_exhausted hc h64 hw ho

/-- A command goes waiting, or answers `OK`, or raises an error and writes nothing but the response (R211). -/
theorem exec_answer (h : exec i s = .next t) :
    t.responses = s.responses ∨ (∃ d, t.responses = s.responses ++ [⟨StatusCode.ok.bits, d⟩]) ∨
    ∃ c, Raises i s c ∧ t = s.respond c 0 := by
  cases i with
  | wkey idx imm =>
    rcases execWkey_next h with ⟨_, rfl⟩ | ⟨hi, rfl⟩
    · exact .inr (.inl ⟨_, rfl⟩)
    · exact .inr (.inr ⟨_, .keyIndex hi, rfl⟩)
  | wnonce idx imm =>
    rcases execWnonce_next h with ⟨_, rfl⟩ | ⟨hi, rfl⟩
    · exact .inr (.inl ⟨_, rfl⟩)
    · exact .inr (.inr ⟨_, .nonceIndex hi, rfl⟩)
  | wrounds imm => rcases execWrounds_next h with rfl; exact .inr (.inl ⟨_, rfl⟩)
  | initk =>
    rcases execInitk_next h with ⟨_, rfl⟩ | ⟨hl, rfl⟩
    · exact .inr (.inl ⟨_, rfl⟩)
    · exact .inr (.inr ⟨_, .initkRounds hl, rfl⟩)
  | inite =>
    rcases execInite_next h with ⟨_, rfl⟩ | ⟨hl, rfl⟩
    · exact .inl rfl
    · exact .inr (.inr ⟨_, .initeRounds hl, rfl⟩)
  | nextb =>
    rcases execNextb_next h with ⟨hc, rfl⟩ | ⟨_, _, rfl⟩ | ⟨hc, h64, hw, ho, rfl⟩ | ⟨_, _, _, rfl⟩
    · exact .inr (.inr ⟨_, .noGenerator hc, rfl⟩)
    · exact .inr (.inl ⟨_, rfl⟩)
    · exact .inr (.inr ⟨_, .exhausted hc h64 hw ho, rfl⟩)
    · exact .inr (.inl ⟨_, rfl⟩)
  | rdstat => rcases execRdstat_next h with rfl; exact .inr (.inl ⟨_, rfl⟩)
  | rdctr => rcases execRdctr_next h with rfl; exact .inr (.inl ⟨_, rfl⟩)
  | zero => rcases execZero_next h with rfl; exact .inr (.inl ⟨_, rfl⟩)

/-- A command whose response is an error raised it, and did nothing else. -/
theorem raises_of_error {r : Response} (h : exec i s = .next t) (hr : t.responses = s.responses ++ [r])
    (he : r.code ≠ 0) : ∃ c, Raises i s c ∧ r = ⟨c.bits, 0⟩ ∧ t = s.respond c 0 := by
  rcases exec_answer h with hwait | ⟨d, hok⟩ | ⟨c, hraise, rfl⟩
  · simp [hwait] at hr
  · obtain rfl : ⟨StatusCode.ok.bits, d⟩ = r := by simpa [hok] using hr
    exact absurd rfl he
  · exact ⟨c, hraise, by simpa [eq_comm] using hr, rfl⟩

/-- The constructors of `StatusCode` stand in the order of R210, so the code is the constructor's number. -/
theorem StatusCode.ofNat_bits :
    Function.LeftInverse (fun b : BitVec 4 => StatusCode.ofNat b.toNat) StatusCode.bits := by
  intro c
  cases c <;> rfl

theorem StatusCode.bits_injective : Function.Injective StatusCode.bits := StatusCode.ofNat_bits.injective

/-- The error of a response is the one that the command raised. -/
theorem raises_of_response {c : StatusCode} {d : Word} (h : exec i s = .next t)
    (hr : t.responses = s.responses ++ [⟨c.bits, d⟩]) (hc : c.bits ≠ 0) : Raises i s c := by
  obtain ⟨c', hraise, hcode, -⟩ := raises_of_error h hr hc
  have hbits : c.bits = c'.bits := congrArg Response.code hcode
  rwa [StatusCode.bits_injective hbits]

/-- Of the outside events only a failed answer to the waiting `INITE` is answered with an error; it ends the wait and
writes no other field (R214). -/
theorem arrive_of_error {r : Response} (e : Event) (hr : (s.arrive e).responses = s.responses ++ [r])
    (he : r.code ≠ 0) :
    r = ⟨StatusCode.entropyError.bits, 0⟩ ∧ s.arrive e = s.endWait.respond .entropyError 0 := by
  cases e with
  | answer n a =>
    rw [State.arrive] at hr ⊢
    rcases receiveAnswer_cases s n a with ⟨_, h⟩ | ⟨_, b, _, h⟩ | ⟨_, _, h⟩
    · simp [h] at hr
    · obtain rfl : ⟨StatusCode.ok.bits, 0⟩ = r := by simpa [h] using hr
      exact absurd rfl he
    · exact ⟨by simpa [h, eq_comm] using hr, h⟩
  | present w => simp [State.arrive] at hr
  | reset => simp [State.arrive] at hr
  | resetAndAnswer a => simp [State.arrive] at hr

/-- Settles O15: an accepted word by `raises_of_error`, the end of a wait by `arrive_of_error`. -/
theorem errorsWriteNoState : Obligations.ErrorsWriteNoState := by
  refine ⟨fun w s t r h hr he => ?_, fun s t r hp h hr he => ?_⟩
  · rcases acceptCommand_next h with ⟨i, _, hexec⟩ | ⟨_, _, rfl⟩
    · obtain ⟨c, _, rfl, rfl⟩ := raises_of_error hexec hr he
      rfl
    · obtain rfl : ⟨StatusCode.illegalCommand.bits, 0⟩ = r := by simpa using hr
      rfl
  · rcases step_next h with ⟨w, hm, _⟩ | ⟨e, _, rfl⟩ | ⟨_, rfl⟩
    · obtain ⟨hidle, -⟩ := nextMove_accept_iff.mp hm
      simp [hp] at hidle
    · obtain ⟨rfl, hend⟩ := arrive_of_error (s := s.dropEvent) e hr he
      exact hend
    · simp at hr

/-- Settles O33: `exec_of_raises` one way and `raises_of_response` the other, where the error is R215's. -/
theorem onlyNextbReportsNotConstructed : Obligations.OnlyNextbReportsNotConstructed :=
  ⟨fun _ hc => exec_of_raises (.noGenerator hc),
    fun _ _ _ _ h hr => nextb_of_raises_notConstructed (raises_of_response h hr (by decide))⟩

/-- Settles O36, as O33, where the error is R216's. -/
theorem counterExhaustedOnlyUnderHalt : Obligations.CounterExhaustedOnlyUnderHalt :=
  ⟨fun _ hc h64 hw ho => exec_of_raises (.exhausted hc h64 hw ho),
    fun _ _ _ _ h hr => nextb_of_raises_counterExhausted (raises_of_response h hr (by decide))⟩

end Sys2Proof.Machine
end

section
/-! SUPPORT. Reset as the next transition (70_reset_and_hazards.md R240), and the wait for entropy while the host presents
words and nothing else comes (R252). -/

namespace Sys2Proof.Machine

variable {s : State} {es : List Event}

/-- No answer and no reset is to come: the outside agents only present words. -/
def State.OnlyPresents (s : State) : Prop := ∀ e ∈ s.events, ∃ w, e = .present w

theorem State.OnlyPresents.dropEvent (h : s.OnlyPresents) : s.dropEvent.OnlyPresents :=
  fun e he => h e (List.mem_of_mem_tail he)

/-- The presented word is no field of R20. -/
theorem sameRecord_dropEvent_presentCommand (s : State) (w : Word) : SameRecord s (s.dropEvent.presentCommand w) := by
  constructor
  · constructor <;> rfl
  all_goals rfl

theorem step_of_waiting_no_events (hp : s.pending = .waitEntropy) (he : s.events = []) : step s = .next s :=
  step_of_wait (nextMove_wait_iff.mpr ⟨by simp [hp], he⟩)

/-- One step of the wait: the core stays as it is, or the next word joins the port. -/
theorem step_of_waiting_onlyPresents (hp : s.pending = .waitEntropy) (ho : s.OnlyPresents) :
    step s = .next s ∨ ∃ w, step s = .next (s.dropEvent.presentCommand w) := by
  cases he : s.events with
  | nil => exact .inl (step_of_waiting_no_events hp he)
  | cons e es =>
    obtain ⟨w, rfl⟩ := ho e (by simp [he])
    exact .inr ⟨w, step_of_waiting hp he⟩

/-- Settles O12, by induction on the number of steps: each step of the wait leaves a wait of the same kind
(`step_of_waiting_onlyPresents`). -/
theorem unansweredInitWaitsForEver : Obligations.UnansweredInitWaitsForEver := by
  intro s hp (ho : s.OnlyPresents) n
  induction n generalizing s with
  | zero => exact ⟨s, rfl, hp, SameRecord.refl s, rfl, List.prefix_rfl⟩
  | succ n ih =>
    rcases step_of_waiting_onlyPresents hp ho with hs | ⟨w, hs⟩
    · obtain ⟨t, hrun, hrest⟩ := ih s hp ho
      exact ⟨t, ⟨s, hs, hrun⟩, hrest⟩
    · obtain ⟨t, hrun, hwait, hsame, hresp, hport⟩ := ih (s.dropEvent.presentCommand w) hp ho.dropEvent
      exact ⟨t, ⟨_, hs, hrun⟩, hwait, (sameRecord_dropEvent_presentCommand s w).trans hsame, hresp,
        (List.prefix_append s.port [w]).trans hport⟩

/-- A reset that the port does not hold back is the next transition, and clears the record. -/
theorem step_of_reset (he : s.events = .reset :: es) (hp : s.pending = .waitEntropy ∨ s.port = []) :
    step s = .next s.dropEvent.clear :=
  step_of_arrive (nextMove_arrive_iff.mpr ⟨by rcases hp with hp | hp <;> simp [hp], es, he⟩)

/-- Settles O30: the step clears the record (`step_of_reset`), and a clear leaves `CTR_OVF`. -/
theorem resetInputSetsTheResetValues : Obligations.ResetInputSetsTheResetValues :=
  fun s _ he hp => ⟨s.dropEvent.clear, step_of_reset he hp, sameRecord_reset_clear s.dropEvent, rfl⟩

end Sys2Proof.Machine
end

section
/-! SUPPORT. Encoder against decoder (30_encoding.md §3, §6): both go through the composition of a word from its row's
opcode bits and its operands. -/

namespace Sys2Proof

open Sys2Proof.Machine

variable {w : Word} {i : Instr} {idx imm : Byte}

/-- A word that fits a row is the row's opcode bits with the word's own operands. -/
theorem Instr.Fits.commandWord_eq (h : i.Fits w) :
    commandWord (encodingRow i).pattern (idxField w) (immField w) = w := by
  have hbits : (opField (encodingRow i).pattern).setWidth 32 <<< 28 = (encodingRow i).pattern := by
    cases i <;> simp only [encodingRow] <;> decide
  have hw := commandWord_of_fields h.rsv_eq
  rwa [h.op_eq, hbits] at hw

/-- R90 read from the row: the word of the row's command is composed of operands that the row allows. -/
theorem encode_withOperands (hidx : idx.toNat ≤ (encodingRow i).lastIdx)
    (himm : immField (encodingRow i).mask ≠ 0 → imm = 0) :
    encode (i.withOperands idx imm) = commandWord (encodingRow i).pattern idx imm := by
  have hzero : idx.toNat ≤ 0 → idx = 0 := by simp [← BitVec.toNat_inj]
  cases i with
  | wkey | wnonce => rfl
  | wrounds =>
    obtain rfl := hzero hidx
    rfl
  | initk | inite | nextb | rdstat | rdctr | zero =>
    obtain rfl := hzero hidx
    obtain rfl := himm (by decide)
    simp only [Instr.withOperands, encodingRow]
    decide

theorem wellFormed_withOperands (hidx : idx.toNat ≤ (encodingRow i).lastIdx) :
    (i.withOperands idx imm).wellFormed = true := by
  cases i with
  | wkey | wnonce => exact decide_eq_true hidx
  | wrounds | initk | inite | nextb | rdstat | rdctr | zero => rfl

/-- Settles O2: a command with operands by `decode_commandWord`, each of the others has one word. -/
theorem decodeOfEncodeIsTheCommand : Obligations.DecodeOfEncodeIsTheCommand := by
  intro i hwf
  cases i with
  | wkey idx imm => exact decode_commandWord (i := .wkey 0 0) (of_decide_eq_true hwf) (absurd rfl)
  | wnonce idx imm => exact decode_commandWord (i := .wnonce 0 0) (of_decide_eq_true hwf) (absurd rfl)
  | wrounds imm => exact decode_commandWord (i := .wrounds 0) (idx := 0) (Nat.le_refl 0) (absurd rfl)
  | initk | inite | nextb | rdstat | rdctr | zero => decide

/-- Settles O3: a word that decodes fits the command's row, and its own operands make up both the command
(`decode_of_fits`) and the word (`Instr.Fits.commandWord_eq`). -/
theorem legalWordIsItsCommandsEncoding : Obligations.LegalWordIsItsCommandsEncoding := by
  intro w i h
  have hfit := fits_of_decode h
  have hi : i.withOperands (idxField w) (immField w) = i := Except.ok.inj ((decode_of_fits hfit).symm.trans h)
  rw [← hi]
  exact ⟨(encode_withOperands hfit.idx_le hfit.imm_eq).trans hfit.commandWord_eq, wellFormed_withOperands hfit.idx_le⟩

/-- Settles O1: each of the words is decoded. -/
theorem wordsOfEveryFamilyDecode : Obligations.WordsOfEveryFamilyDecode := by
  unfold Obligations.WordsOfEveryFamilyDecode
  decide

end Sys2Proof
end

section
/-! SUPPORT. What an accepted word does: every command answers a next state, and either it has its one response or it is
an `INITE` that begins to wait (00_scope.md R8, R15). -/

namespace Sys2Proof.Machine

variable {s t : State} {i : Instr}

/-- A cursor that is not below 64 stands at 64 (10_state.md R28). -/
theorem cursor_eq_of_not_lt (h : ¬ s.cursor.val < 64) : s.cursor = 64 :=
  Fin.ext (Nat.le_antisymm (Nat.le_of_lt_succ s.cursor.isLt) (Nat.le_of_not_lt h))

/-- No arm of `exec` stops (00_scope.md R15). -/
theorem exec_total (i : Instr) (s : State) : ∃ t, exec i s = .next t := by
  cases i with
  | wkey idx imm =>
    by_cases h : idx.toNat < 32
    · exact ⟨_, execWkey_of_lt h imm s⟩
    · exact ⟨_, execWkey_of_not_lt h imm s⟩
  | wnonce idx imm =>
    by_cases h : idx.toNat < 12
    · exact ⟨_, execWnonce_of_lt h imm s⟩
    · exact ⟨_, execWnonce_of_not_lt h imm s⟩
  | wrounds | rdstat | rdctr | zero => exact ⟨_, rfl⟩
  | initk =>
    cases h : legalRounds s.srounds with
    | true => exact ⟨_, execInitk_of_legal h⟩
    | false => exact ⟨_, execInitk_of_illegal h⟩
  | inite =>
    cases h : legalRounds s.srounds with
    | true => exact ⟨_, execInite_of_legal h⟩
    | false => exact ⟨_, execInite_of_illegal h⟩
  | nextb =>
    cases hc : s.constructed with
    | false => exact ⟨_, execNextb_of_not_constructed hc⟩
    | true =>
      by_cases hlt : s.cursor.val < 64
      · exact ⟨_, execNextb_of_lt hc hlt⟩
      have h64 := cursor_eq_of_not_lt hlt
      by_cases hw : s.wrapped = true ∧ s.ctrOvf = .halt
      · exact ⟨_, execNextb_of_exhausted hc h64 hw.1 hw.2⟩
      · exact ⟨_, execNextb_of_refill hc h64 hw⟩

theorem step_total (s : State) : ∃ t, step s = .next t := by
  cases hm : s.nextMove with
  | accept w =>
    rw [step_of_accept hm]
    cases hd : decode w with
    | ok i => rw [acceptCommand_of_ok hd]; exact exec_total i s.takeCommand
    | error e => exact ⟨_, acceptCommand_of_error hd s.takeCommand⟩
  | arrive e => exact ⟨_, step_of_arrive hm⟩
  | wait => exact ⟨s, step_of_wait hm⟩

/-- A command that does not go waiting has its one response at once and begins no wait (R8, R14). -/
theorem exec_waits_or_responds (h : exec i s = .next t) :
    (i = .inite ∧ legalRounds s.srounds = true ∧ t = s.requestEntropy) ∨
    ((∃ r, t.responses = s.responses ++ [r]) ∧ (t.pending = .waitEntropy → s.pending = .waitEntropy)) := by
  cases i with
  | wkey idx imm => rcases execWkey_next h with ⟨_, rfl⟩ | ⟨_, rfl⟩ <;> exact .inr ⟨⟨_, rfl⟩, id⟩
  | wnonce idx imm => rcases execWnonce_next h with ⟨_, rfl⟩ | ⟨_, rfl⟩ <;> exact .inr ⟨⟨_, rfl⟩, id⟩
  | wrounds imm => rcases execWrounds_next h with rfl; exact .inr ⟨⟨_, rfl⟩, id⟩
  | initk => rcases execInitk_next h with ⟨_, rfl⟩ | ⟨_, rfl⟩ <;> exact .inr ⟨⟨_, rfl⟩, id⟩
  | inite =>
    rcases execInite_next h with ⟨hl, rfl⟩ | ⟨_, rfl⟩
    · exact .inl ⟨rfl, hl, rfl⟩
    · exact .inr ⟨⟨_, rfl⟩, id⟩
  | nextb =>
    rcases execNextb_next h with ⟨_, rfl⟩ | ⟨_, _, rfl⟩ | ⟨_, _, _, _, rfl⟩ | ⟨_, _, _, rfl⟩ <;>
      exact .inr ⟨⟨_, rfl⟩, id⟩
  | rdstat => rcases execRdstat_next h with rfl; exact .inr ⟨⟨_, rfl⟩, id⟩
  | rdctr => rcases execRdctr_next h with rfl; exact .inr ⟨⟨_, rfl⟩, id⟩
  | zero => rcases execZero_next h with rfl; exact .inr ⟨⟨_, rfl⟩, nofun⟩

theorem takeCommand_eq {w : Word} {rest : List Word} (h : s.port = w :: rest) :
    s.takeCommand = { s with port := rest } := by
  rw [State.takeCommand, h, List.tail_cons]

/-- A ready port with a word in it accepts the word. -/
theorem step_of_ready {w : Word} {rest : List Word} (hp : s.pending = .idle) (h : s.port = w :: rest) :
    step s = acceptCommand w { s with port := rest } := by
  rw [step_of_accept (nextMove_accept_iff.mpr ⟨hp, rest, h⟩), takeCommand_eq h]

/-- Settles O7, by `step_of_ready`. -/
theorem stepRunsTheDecodedCommand : Obligations.StepRunsTheDecodedCommand :=
  fun _ _ _ _ hp h hd => (step_of_ready hp h).trans (acceptCommand_of_ok hd _)

/-- Settles O8, by `step_of_ready`. -/
theorem illegalWordAnswersIllegalCommand : Obligations.IllegalWordAnswersIllegalCommand :=
  fun _ _ _ _ hp h hd => (step_of_ready hp h).trans (acceptCommand_of_error hd _)

/-- Settles O9, by `exec_total` and `step_total`. -/
theorem everyStepAnswersANextState : Obligations.EveryStepAnswersANextState := ⟨exec_total, step_total⟩

/-- Settles O13: a legal word by `exec_waits_or_responds`, and an illegal one has the response of R212. -/
theorem acceptedWordIsAnsweredOnce : Obligations.AcceptedWordIsAnsweredOnce := by
  intro w s t h
  rcases acceptCommand_next h with ⟨i, hd, hi⟩ | ⟨_, _, rfl⟩
  · rcases exec_waits_or_responds hi with ⟨rfl, _, rfl⟩ | ⟨hresp, _⟩
    · exact .inr ⟨hd, rfl, rfl⟩
    · exact .inl hresp
  · exact .inl ⟨_, rfl⟩

/-- The response has a code of R210, and data 0 if the code is an error (30_encoding.md R84). -/
def Response.Architected (r : Response) : Prop := r.code.toNat ≤ 5 ∧ (r.code ≠ 0 → r.data = 0)

theorem StatusCode.architected_error (c : StatusCode) : Response.Architected ⟨c.bits, 0⟩ := by
  cases c <;> exact ⟨by decide, fun _ => rfl⟩

theorem StatusCode.architected_ok (d : Word) : Response.Architected ⟨StatusCode.ok.bits, d⟩ :=
  ⟨Nat.zero_le 5, absurd rfl⟩

/-- A command delivers nothing or an architected response. -/
theorem exec_architected (h : exec i s = .next t) :
    t.responses = s.responses ∨ ∃ r, t.responses = s.responses ++ [r] ∧ r.Architected := by
  rcases exec_answer h with hwait | ⟨d, hok⟩ | ⟨c, _, rfl⟩
  · exact .inl hwait
  · exact .inr ⟨_, hok, StatusCode.architected_ok d⟩
  · exact .inr ⟨_, rfl, c.architected_error⟩

/-- An outside event delivers nothing, or ends an `INITE` with `OK` or `ENTROPY_ERROR` and data 0. -/
theorem arrive_architected (s : State) (e : Event) :
    (s.arrive e).responses = s.responses ∨
    ∃ r, (s.arrive e).responses = s.responses ++ [r] ∧ r.Architected := by
  cases e with
  | answer n a =>
    rw [State.arrive]
    rcases receiveAnswer_cases s n a with ⟨_, h⟩ | ⟨_, b, _, h⟩ | ⟨_, _, h⟩ <;> rw [h]
    · exact .inl rfl
    · exact .inr ⟨_, rfl, StatusCode.ok.architected_error⟩
    · exact .inr ⟨_, rfl, StatusCode.entropyError.architected_error⟩
  | present | reset | resetAndAnswer => exact .inl rfl

/-- Settles O14: an accepted word by `exec_architected`, an outside event by `arrive_architected`. -/
theorem responsesCarryArchitectedCodes : Obligations.ResponsesCarryArchitectedCodes := by
  intro s t h
  rcases step_next h with ⟨w, _, ha⟩ | ⟨e, _, rfl⟩ | ⟨_, rfl⟩
  · rcases acceptCommand_next ha with ⟨i, _, hi⟩ | ⟨_, _, rfl⟩
    · exact exec_architected (s := s.takeCommand) hi
    · exact .inr ⟨_, rfl, StatusCode.illegalCommand.architected_error⟩
  · exact arrive_architected s.dropEvent e
  · exact .inl rfl

end Sys2Proof.Machine
end

section
/-! SUPPORT. The invariants of 10_state.md R31, step by step. R31 speaks of generator fields only, so a transition that
writes none of them keeps it, and the transitions that do are a construction, a clear and `NEXTB`. The round count
checked at the issue of an `INITE` (44_construction.md R183) is carried through the wait. -/

namespace Sys2Proof.Machine

variable {s t : State} {i : Instr}

theorem legalRounds_iff_bounds {r : Byte} : legalRounds r = true ↔ r.toNat % 2 = 0 ∧ 2 ≤ r.toNat := by
  refine ⟨fun h => ?_, fun ⟨h2, hle⟩ => legalRounds_iff.mpr ⟨?_, h2⟩⟩
  · obtain ⟨h2, hle, -⟩ := legalRounds_bounds h
    exact ⟨h2, hle⟩
  · rintro rfl
    simp at hle

/-! ### Where R31 comes from -/

theorem State.Sound.of_sameGenerator (h : s.Sound) (hst : SameGenerator s t) : t.Sound := by
  obtain ⟨hcons, hkey, hnonce, hrounds, hctr, hbuf, hcur, hwr⟩ := hst
  constructor
  · exact hcur ▸ h.cursor_bound
  · rw [hcons, hkey, hnonce, hbuf, hrounds, hctr, hcur, hwr]
    exact h.no_generator
  · rw [hcons, hrounds]
    exact h.legal_rounds
  · rw [hwr, hcons]
    exact h.wrapped_needs_generator
  · rw [hcons, hcur, hbuf, hkey, hnonce, hctr, hrounds]
    exact h.buffer_is_block

theorem State.Sound.respond (h : s.Sound) (c : StatusCode) (d : Word) : (s.respond c d).Sound :=
  h.of_sameGenerator (sameRecord_respond s c d).toSameGenerator

theorem State.sound_reset : State.reset.Sound where
  cursor_bound := Nat.le_refl 64
  no_generator _ := ⟨rfl, rfl, rfl, rfl, rfl, rfl, rfl⟩
  legal_rounds := nofun
  wrapped_needs_generator := nofun
  buffer_is_block := nofun

theorem State.sound_clear (s : State) : s.clear.Sound :=
  State.sound_reset.of_sameGenerator (sameRecord_reset_clear s).toSameGenerator

/-- A construction from a legal staged round count leaves the buffer empty, so R31 asks nothing of its bytes. -/
theorem State.sound_construct (hl : legalRounds s.srounds = true) (key : Vector Byte 32) (nonce : Vector Byte 12) :
    (s.construct key nonce).Sound where
  cursor_bound := Nat.le_refl 64
  no_generator := nofun
  legal_rounds _ := legalRounds_bounds hl
  wrapped_needs_generator := nofun
  buffer_is_block _ hlt := absurd hlt (Nat.lt_irrefl 64)

/-- Serving a byte moves the cursor only, so the block it is taken from must be there already. -/
theorem State.Sound.advance (h : s.Sound) (hc : s.constructed = true) {j : Fin 64}
    (hbuf : s.buf = chachaBlock s.key s.nonce (s.counter - 1) s.rounds) : (s.advance j).Sound where
  cursor_bound := Nat.le_of_lt_succ j.succ.isLt
  no_generator hn := absurd (hc.symm.trans hn) nofun
  legal_rounds := h.legal_rounds
  wrapped_needs_generator := h.wrapped_needs_generator
  buffer_is_block _ _ := hbuf

/-- After a refill the buffer is the block of the counter before it (R151). -/
theorem State.buf_refill (s : State) :
    s.refill.buf = chachaBlock s.refill.key s.refill.nonce (s.refill.counter - 1) s.refill.rounds := by
  rw [refill_counter, BitVec.add_sub_cancel]
  rfl

theorem State.Sound.refill (h : s.Sound) (hc : s.constructed = true) : s.refill.Sound where
  cursor_bound := Nat.zero_le 64
  no_generator hn := absurd (hc.symm.trans hn) nofun
  legal_rounds := h.legal_rounds
  wrapped_needs_generator _ := hc
  buffer_is_block _ _ := s.buf_refill

theorem State.Sound.of_execNextb (h : s.Sound) (hn : execNextb s = .next t) : t.Sound := by
  rcases execNextb_next hn with ⟨_, rfl⟩ | ⟨hc, hlt, rfl⟩ | ⟨_, _, _, _, rfl⟩ | ⟨hc, _, _, rfl⟩
  · exact h.respond _ _
  · exact (h.advance hc (h.buffer_is_block hc hlt)).respond _ _
  · exact h.respond _ _
  · exact ((h.refill hc).advance hc (s.buf_refill)).respond _ _

/-! ### The commands, the outside events, the step -/

theorem State.Sound.of_exec (h : s.Sound) (hi : exec i s = .next t) : t.Sound := by
  by_cases hn : i = .nextb
  · subst hn
    exact h.of_execNextb hi
  by_cases hz : i = .zero
  · subst hz
    rcases execZero_next hi with rfl
    exact s.sound_clear.respond _ _
  by_cases hk : i = .initk → legalRounds s.srounds = false
  · exact h.of_sameGenerator (exec_keeps_generator hn hk hz hi)
  · obtain ⟨rfl, hl⟩ : i = .initk ∧ legalRounds s.srounds = true := by simpa using hk
    obtain rfl := succeed_eq_next_iff.mp ((execInitk_of_legal hl).symm.trans hi)
    exact (State.sound_construct hl _ _).respond _ _

/-- Only an `INITE` that has passed its check begins a wait (R183). -/
theorem State.Sound.inv_exec (h : s.Sound) (hp : s.pending = .idle) (hi : exec i s = .next t) : t.Inv where
  toSound := h.of_exec hi
  waiting_rounds hw := by
    rcases exec_waits_or_responds hi with ⟨_, hl, rfl⟩ | ⟨_, hwait⟩
    · exact legalRounds_iff_bounds.mp hl
    · exact absurd (hp.symm.trans (hwait hw)) nofun

theorem State.Inv.of_sameRecord (h : s.Inv) (hst : SameRecord s t) : t.Inv where
  toSound := h.toSound.of_sameGenerator hst.toSameGenerator
  waiting_rounds := by
    rw [hst.pending, hst.srounds]
    exact h.waiting_rounds

theorem State.Sound.inv_of_idle (h : s.Sound) (hp : s.pending = .idle) : s.Inv :=
  { h with waiting_rounds := fun hw => absurd (hp.symm.trans hw) nofun }

/-- The answer that completes an `INITE` constructs from the count that the wait has carried (R185). -/
theorem State.Inv.receiveAnswer (h : s.Inv) (n : Nat) (a : EntropyAnswer) : (s.receiveAnswer n a).Inv := by
  rcases receiveAnswer_cases s n a with ⟨_, hr⟩ | ⟨haw, e, _, hr⟩ | ⟨_, _, hr⟩ <;> rw [hr]
  · exact h
  · have hl := legalRounds_iff_bounds.mpr (h.waiting_rounds (awaits_iff.mp haw).1)
    refine State.Sound.inv_of_idle ?_ rfl
    exact (State.sound_construct hl _ _).of_sameGenerator (by constructor <;> rfl)
  · exact (h.toSound.of_sameGenerator (by constructor <;> rfl)).inv_of_idle rfl

theorem State.Inv.arrive (h : s.Inv) (e : Event) : (s.arrive e).Inv := by
  cases e with
  | present w => exact { h with }
  | answer n a => exact h.receiveAnswer n a
  | reset | resetAndAnswer => exact s.sound_clear.inv_of_idle rfl

/-- Settles O42: an accepted word finds the core idle (`State.Sound.inv_exec`), an outside event may meet a wait
(`State.Inv.arrive`). -/
theorem everyStepKeepsTheInvariant : Obligations.EveryStepKeepsTheInvariant := by
  intro s t h hs
  rcases step_next hs with ⟨w, hm, ha⟩ | ⟨e, _, rfl⟩ | ⟨_, rfl⟩
  · obtain ⟨hp, -⟩ := nextMove_accept_iff.mp hm
    have htaken : s.takeCommand.Sound := { h.toSound with }
    rcases acceptCommand_next ha with ⟨i, _, hi⟩ | ⟨_, _, rfl⟩
    · exact htaken.inv_exec hp hi
    · exact (htaken.respond _ _).inv_of_idle hp
  · exact State.Inv.arrive (s := s.dropEvent) { h with } e
  · exact h

/-- Settles O43: at reset there is no generator and no wait. -/
theorem resetStateMeetsTheInvariant : Obligations.ResetStateMeetsTheInvariant := State.sound_reset.inv_of_idle rfl

/-! ### Runs -/

theorem State.Inv.of_steps {n : Nat} (h : s.Inv) (hs : Steps n s t) : t.Inv := by
  induction n generalizing s with
  | zero => exact hs ▸ h
  | succ n ih =>
    obtain ⟨u, hu, hrest⟩ := hs
    exact ih (everyStepKeepsTheInvariant s u h hu) hrest

theorem powerUp_inv (p : CtrOvf) (es : List Event) : (powerUp p es).Inv := { resetStateMeetsTheInvariant with }

/-- Settles O41: power-up meets the invariant and every run keeps it (`State.Inv.of_steps`). -/
theorem reachableStatesAreSound : Obligations.ReachableStatesAreSound := by
  rintro s ⟨p, es, n, hs⟩
  exact ((powerUp_inv p es).of_steps hs).toSound

/-- Settles O44, by induction on the number of steps: a step answers (`step_total`) and keeps the invariant. -/
theorem everyRunIsSafe : Obligations.EveryRunIsSafe := by
  intro s n h
  induction n generalizing s with
  | zero => exact h.toSound
  | succ n ih =>
    obtain ⟨t, ht⟩ := step_total s
    exact ⟨h.toSound, t, ht, ih t (everyStepKeepsTheInvariant s t h ht)⟩

end Sys2Proof.Machine
end

section
/-! SUPPORT. A whole run inside one generator lifetime (43_keystream_cursor.md R154 to R157): what it leaves of the key,
how many blocks it draws, and where it ends in the keystream. -/

namespace Sys2Proof.Machine

variable {key : Vector Byte 32} {nonce : Vector Byte 12} {r : Byte} {q k n : Nat} {s t : State}

/-- `NEXTB` moves along the keystream of the generator and keeps what defines it (R24). -/
theorem execNextb_keeps_seed (h : execNextb s = .next t) :
    t.key = s.key ∧ t.nonce = s.nonce ∧ t.rounds = s.rounds ∧ t.constructed = s.constructed := by
  rcases execNextb_next h with ⟨_, rfl⟩ | ⟨_, _, rfl⟩ | ⟨_, _, _, _, rfl⟩ | ⟨_, _, _, rfl⟩ <;>
    exact ⟨rfl, rfl, rfl, rfl⟩

/-- Settles O45: a step inside a lifetime keeps the generator, or is a `NEXTB`. -/
theorem keyAndNonceAreConstantForALifetime : Obligations.KeyAndNonceAreConstantForALifetime := by
  intro s t h hl
  rcases step_inside_lifetime h hl with ⟨hsame, _⟩ | ⟨_, _, _, hexec⟩
  · exact ⟨hsame.key, hsame.nonce, hsame.rounds, hsame.constructed⟩
  · exact execNextb_keeps_seed (s := s.takeCommand) hexec

theorem steps_total (n : Nat) (s : State) : ∃ t, Steps n s t := by
  induction n generalizing s with
  | zero => exact ⟨s, rfl⟩
  | succ n ih =>
    obtain ⟨u, hu⟩ := step_total s
    obtain ⟨t, ht⟩ := ih u
    exact ⟨t, u, hu, ht⟩

/-- No transition writes the design-time parameter (00_scope.md R5). -/
theorem step_keeps_ctrOvf (h : step s = .next t) : t.ctrOvf = s.ctrOvf := by
  rcases step_next h with ⟨w, _, ha⟩ | ⟨e, _, rfl⟩ | ⟨_, rfl⟩
  · obtain ⟨-, -, hovf⟩ := acceptCommand_keeps_inputs ha
    exact hovf
  · cases e with
    | answer n a =>
      obtain ⟨-, -, hovf⟩ := receiveAnswer_keeps_inputs s.dropEvent n a
      exact hovf
    | present | reset | resetAndAnswer => rfl
  · rfl

namespace State.StreamAt

/-- A run inside a lifetime draws a block per refill and serves its bytes. -/
theorem after_steps (h : s.StreamAt key nonce r q k) (hu : Undisturbed n s) (hs : Steps n s t) :
    t.StreamAt key nonce r (q + refillsDone n s) (k + (bytesServed n s).length) := by
  induction n generalizing s q k with
  | zero => exact hs ▸ h
  | succ n ih =>
    obtain ⟨hl, hrest⟩ := hu
    obtain ⟨u, hstep, hs⟩ := hs
    rw [bytesServed_succ hstep, refillsDone_succ hstep, List.length_append, ← Nat.add_assoc, ← Nat.add_assoc]
    rcases h.after_step hstep hl with ⟨hnone, hu⟩ | ⟨hsome, hu⟩
    · simpa [hnone] using ih hu (hrest u hstep) hs
    · have hdrawn : (if s.cursor = 64 then q + 1 else q) =
          q + if s.cursor = 64 ∧ (servedByte s u).isSome then 1 else 0 := by
        simp only [hsome, Option.isSome_some, and_true]
        split <;> rfl
      rw [hdrawn] at hu
      simpa [hsome] using ih hu (hrest u hstep) hs

/-- No more is served than the blocks drawn hold. -/
theorem served_le (h : s.StreamAt key nonce r q k) : k ≤ 64 * q := by
  have := h.cursor_eq
  have := s.cursor.isLt
  omega

/-- With the cursor past the first byte of the last block, no more blocks are drawn than the bytes served need. -/
theorem drawn_eq (h : s.StreamAt key nonce r q k) (h0 : s.cursor ≠ 0) : q = (k + 63) / 64 := by
  have := h.cursor_eq
  have := s.cursor.isLt
  have : s.cursor.val ≠ 0 := fun e => h0 (Fin.ext e)
  omega

end State.StreamAt

/-- The cursor stands at 0 inside a `NEXTB` only, between the refill and the byte. -/
theorem cursor_ne_zero_of_steps (h0 : s.cursor ≠ 0) (hu : Undisturbed n s) (hs : Steps n s t) : t.cursor ≠ 0 := by
  induction n generalizing s with
  | zero => exact hs ▸ h0
  | succ n ih =>
    obtain ⟨hl, hrest⟩ := hu
    obtain ⟨u, hstep, hs⟩ := hs
    refine ih ?_ (hrest u hstep) hs
    rcases step_inside_lifetime hstep hl with ⟨hsame, _⟩ | ⟨_, _, _, hexec⟩
    · rwa [hsame.cursor]
    · rcases execNextb_next hexec with ⟨_, rfl⟩ | ⟨_, _, rfl⟩ | ⟨_, _, _, _, rfl⟩ | ⟨_, _, _, rfl⟩
      · exact h0
      · simp
      · exact h0
      · simp

/-- Settles O39: the run ends at a position of the stream (`State.StreamAt.after_steps`) with the cursor not at 0. -/
theorem counterCountsTheRefills : Obligations.CounterCountsTheRefills := by
  intro s t n hf hu hs
  have hpos := hf.streamAt.after_steps hu hs
  rw [Nat.zero_add, Nat.zero_add] at hpos
  have hdrawn := hpos.drawn_eq (cursor_ne_zero_of_steps (by simp [hf.cursor]) hu hs)
  exact ⟨hdrawn, hdrawn ▸ hpos.counter_eq⟩

/-- A refill that R152 refuses serves no byte. -/
theorem not_wrapped_of_refilled (hs : step s = .next t) (h64 : s.cursor = 64) (hb : (servedByte s t).isSome)
    (ho : s.ctrOvf = .halt) : ¬ s.wrapped = true := by
  have hacc : s.accepts .nextb := by
    by_contra hn
    simp [servedByte_eq_none t hn] at hb
  obtain ⟨w, hm, hd⟩ := hacc
  rw [step_of_accept hm, acceptCommand_of_ok hd] at hs
  rcases execNextb_next hs with ⟨_, rfl⟩ | ⟨_, hlt, _⟩ | ⟨_, _, _, _, rfl⟩ | ⟨_, _, hgo, _⟩
  · simp [servedByte_respond_error (c := .notConstructed) (by decide)] at hb
  · simp [h64] at hlt
  · simp [servedByte_respond_error (c := .counterExhausted) (by decide)] at hb
  · exact fun hw => hgo ⟨hw, ho⟩

/-- Under `HALT` no generator draws more than `2^32 - 1` blocks: the last of them sets `wrapped`. -/
theorem drawn_le_of_halt (h : s.StreamAt key nonce r q k) (ho : s.ctrOvf = .halt) (hq : q ≤ 2 ^ 32 - 1)
    (hu : Undisturbed n s) : q + refillsDone n s ≤ 2 ^ 32 - 1 := by
  induction n generalizing s q k with
  | zero => exact hq
  | succ n ih =>
    obtain ⟨hl, hrest⟩ := hu
    obtain ⟨u, hstep⟩ := step_total s
    have hou := (step_keeps_ctrOvf hstep).trans ho
    rw [refillsDone_succ hstep, ← Nat.add_assoc]
    rcases h.after_step hstep hl with ⟨hnone, hu⟩ | ⟨hsome, hu⟩
    · simpa [hnone] using ih hu hou hq (hrest u hstep)
    by_cases h64 : s.cursor = 64
    · have hleft := not_wrapped_of_refilled hstep h64 (by simp [hsome]) ho
      rw [h.wrapped_iff] at hleft
      rw [if_pos h64] at hu
      simpa [h64, hsome] using ih hu hou (by omega) (hrest u hstep)
    · rw [if_neg h64] at hu
      simpa [h64] using ih hu hou hq (hrest u hstep)

/-- Settles O38: the bytes by `keystreamByte_of_bytesServed`, and their number under `HALT` by the blocks drawn. -/
theorem nextbsServeTheKeystreamInOrder : Obligations.NextbsServeTheKeystreamInOrder := by
  refine fun s n hf hu => ⟨fun k b hb => keystreamByte_of_bytesServed hf hu hb, fun ho => ?_⟩
  obtain ⟨t, hs⟩ := steps_total n s
  have hserved := (hf.streamAt.after_steps hu hs).served_le
  have hdrawn := drawn_le_of_halt hf.streamAt ho (Nat.zero_le _) hu
  omega

/-- The keystream of a 32-bit counter has a period of `2^32` blocks (R154). -/
theorem keystreamByte_add_period (k : Nat) :
    keystreamByte key nonce r (k + 2 ^ 38) = keystreamByte key nonce r k := by
  have hblock : (BitVec.ofNat 32 (1 + (k + 2 ^ 38) / 64)) = BitVec.ofNat 32 (1 + k / 64) := by
    apply BitVec.eq_of_toNat_eq
    simp only [BitVec.toNat_ofNat]
    omega
  have hbyte : (k + 2 ^ 38) % 64 = k % 64 := by omega
  simp only [keystreamByte, hblock, hbyte]

/-- Settles O37: both bytes are bytes of the one keystream (`keystreamByte_of_bytesServed`), which is periodic. -/
theorem servedBytesRepeatAfter256GiB : Obligations.ServedBytesRepeatAfter256GiB := by
  intro s n hf _ hu k b b' hb hb'
  have hfirst := keystreamByte_of_bytesServed hf hu hb
  have hagain := keystreamByte_of_bytesServed hf hu hb'
  rw [keystreamByte_add_period] at hagain
  exact hagain.trans hfirst.symm

end Sys2Proof.Machine
end

section
/-! SUPPORT. Answers that no `INITE` waits for, and reset (44_construction.md R184, 60_exceptions.md R218,
70_reset_and_hazards.md R240, R241). A request number is past once no `INITE` waits for it and none ever will: requests
are numbered in order, and a new wait raises a new one. -/

namespace Sys2Proof.Machine

variable {s t : State} {es : List Event} {m n : Nat}

/-- No wait, now or later, is for a request numbered `m` or less. -/
structure State.Past (s : State) (m : Nat) : Prop where
  raised : m ≤ s.requests.length
  not_awaited : s.pending = .waitEntropy → m < s.requests.length

theorem State.Past.of_step (h : s.Past m) (hs : step s = .next t) : t.Past m := by
  obtain ⟨hle, hlt⟩ := h
  rcases step_requests hs with ⟨hreq, hwait⟩ | hreq
  · exact ⟨hreq ▸ hle, fun hp => hreq ▸ hlt (hwait hp)⟩
  · have hlen : t.requests.length = s.requests.length + 1 := by simp [hreq]
    exact ⟨by omega, fun _ => by omega⟩

theorem State.Past.of_steps (h : s.Past m) (hs : Steps n s t) : t.Past m := by
  induction n generalizing s with
  | zero => exact hs ▸ h
  | succ n ih =>
    obtain ⟨u, hu, hrest⟩ := hs
    exact ih (h.of_step hu) hrest

theorem State.Past.awaits_eq_false (h : s.Past m) {request : Nat} (hle : request ≤ m) : s.awaits request = false := by
  rw [Bool.eq_false_iff]
  intro haw
  obtain ⟨hp, heq⟩ := awaits_iff.mp haw
  have := h.not_awaited hp
  omega

/-- A reset leaves no wait, so every request raised until then is past. -/
theorem State.past_clear (s : State) : s.clear.Past s.requests.length := ⟨Nat.le_refl _, nofun⟩

/-- An answer to a request that no `INITE` waits for is taken off the events and does nothing (R218, R241). -/
theorem step_of_stray_answer {request : Nat} {a : EntropyAnswer} (hm : s.nextMove = .arrive (.answer request a))
    (haw : s.awaits request = false) : step s = .next s.dropEvent := by
  rw [step_of_arrive hm, State.arrive, receiveAnswer_of_not_awaits (s := s.dropEvent) haw]

/-- Settles O31: the reset makes the abandoned request past, every step keeps it so, and the answer is then a stray
one. -/
theorem resetAbandonsTheWaitingInite : Obligations.ResetAbandonsTheWaitingInite := by
  intro s es hp he
  refine ⟨s.dropEvent.clear, step_of_reset he (.inl hp), sameRecord_reset_clear _, rfl, ?_⟩
  intro n u request a hs hle hm
  exact step_of_stray_answer hm ((s.dropEvent.past_clear.of_steps hs).awaits_eq_false hle)

/-- With no word that the core could take, the next event is the next transition. -/
theorem nextMove_of_event {e : Event} (he : s.events = e :: es) (hp : s.pending = .waitEntropy ∨ s.port = []) :
    s.nextMove = .arrive e :=
  nextMove_arrive_iff.mpr ⟨by rcases hp with hp | hp <;> simp [hp], es, he⟩

/-- Settles O32: a reset with an answer is the same clear as the reset alone, and an answer while the core is idle or
waits for another request is a stray one. -/
theorem resetWinsAndStrayAnswersAreDiscarded : Obligations.ResetWinsAndStrayAnswersAreDiscarded := by
  refine fun s request a es => ⟨fun hp he => ?_, fun hstray he => ?_⟩
  · have hboth : step s = .next s.dropEvent.clear := step_of_arrive (nextMove_of_event he hp)
    have hreset := step_of_reset (s := { s with events := .reset :: es }) rfl hp
    rw [hboth, hreset, dropEvent_eq he]
    rfl
  · have hfree : s.pending = .waitEntropy ∨ s.port = [] := hstray.symm.imp And.left And.right
    have haw : s.awaits request = false := by
      rw [Bool.eq_false_iff, Ne, awaits_iff]
      rcases hstray with ⟨hp, _⟩ | ⟨_, hne⟩
      · simp [hp]
      · simp [hne]
    rw [step_of_stray_answer (nextMove_of_event he hfree) haw, dropEvent_eq he]

/-- No event takes a word off the port. -/
theorem port_prefix_arrive (s : State) (e : Event) : s.port <+: (s.arrive e).port := by
  cases e with
  | present w => exact List.prefix_append s.port [w]
  | answer n a =>
    obtain ⟨hport, -, -⟩ := receiveAnswer_keeps_inputs s n a
    exact hport ▸ List.prefix_rfl
  | reset | resetAndAnswer => exact List.prefix_rfl

theorem dropEvent_eq_self (h : s.events = []) : s.dropEvent = s := by
  rw [State.dropEvent, h, List.tail_nil, ← h]

/-- Settles O11: a waiting core takes no word, so its step is the next event, or nothing at all. -/
theorem waitingCoreAcceptsNoCommand : Obligations.WaitingCoreAcceptsNoCommand := by
  intro s t hp h
  rcases step_next h with ⟨w, hm, _⟩ | ⟨e, hm, rfl⟩ | ⟨hm, rfl⟩
  · obtain ⟨hidle, -⟩ := nextMove_accept_iff.mp hm
    exact absurd (hidle.symm.trans hp) nofun
  · obtain ⟨-, es, he⟩ := nextMove_arrive_iff.mp hm
    refine ⟨port_prefix_arrive s.dropEvent e, ?_⟩
    cases e with
    | present w => exact .inr rfl
    | answer | reset | resetAndAnswer => exact .inl ⟨_, es, he, nofun⟩
  · obtain ⟨-, he⟩ := nextMove_wait_iff.mp hm
    exact ⟨List.prefix_rfl, .inr (dropEvent_eq_self he).symm⟩

/-- Settles O25: the answer's construction and `INITK`'s are the same `State.construct`. -/
theorem entropyConstructionIsExplicitConstruction : Obligations.EntropyConstructionIsExplicitConstruction := by
  intro s t u e es key nonce hp he h0 h2 hkey hnonce hs hk
  have hl : legalRounds s.srounds = true := legalRounds_iff.mpr ⟨h0, h2⟩
  obtain rfl := succeed_eq_next_iff.mp
    ((execInitk_of_legal (s := { s with skey := key, snonce := nonce }) hl).symm.trans hk)
  cases (step_of_answer_ok hp he).symm.trans hs
  rw [State.completeEntropy, entropyKey_eq hkey, entropyNonce_eq hnonce]
  have hgen := sameGenerator_construct (s := s.dropEvent) (t := { s with skey := key, snonce := nonce }) rfl key nonce
  exact ⟨{ hgen with }, rfl, rfl, rfl⟩

theorem steps_keep_ctrOvf (h : Steps n s t) : t.ctrOvf = s.ctrOvf := by
  induction n generalizing s with
  | zero => exact h ▸ rfl
  | succ n ih =>
    obtain ⟨u, hu, hrest⟩ := h
    exact (ih hrest).trans (step_keeps_ctrOvf hu)

/-- Settles O48: `CTR_OVF` by `steps_keep_ctrOvf`; `ZERO` and reset clear the record and no port. -/
theorem portsAndPolicySurviveDestruction : Obligations.PortsAndPolicySurviveDestruction := by
  refine ⟨fun n s t => steps_keep_ctrOvf, fun s t h => ?_, fun s t es he hp h => ?_⟩
  · obtain rfl := execZero_next h
    constructor <;> rfl
  · cases (step_of_reset he hp).symm.trans h
    rw [dropEvent_eq he]
    rfl

end Sys2Proof.Machine
end

section
/-! SUPPORT. What the staging writes leave alone, and what a command lets through of the staging secrets and of the seed
(10_state.md §2, §3). Where the secrets before a command are replaced by others, it takes the same branch, and what comes
out differs in the secrets only. -/

namespace Sys2Proof.Machine

variable {s t : State} {i : Instr}

/-! ### The frame of the staging writes -/

/-- Settles O19: each write sets one byte of its vector, and its response is no field. -/
theorem stagingWritesFrame : Obligations.StagingWritesFrame := by
  refine fun idx imm s t => ⟨fun h => ?_, fun h => ?_, fun h => ?_⟩
  · rcases execWkey_next h with ⟨hi, rfl⟩ | ⟨_, rfl⟩
    · exact ⟨by constructor <;> rfl, by constructor <;> rfl, rfl, rfl, rfl,
        fun j hj hne => Vector.getElem_set_ne hi hj (Ne.symm hne)⟩
    · exact ⟨by constructor <;> rfl, by constructor <;> rfl, rfl, rfl, rfl, fun _ _ _ => rfl⟩
  · rcases execWnonce_next h with ⟨hi, rfl⟩ | ⟨_, rfl⟩
    · exact ⟨by constructor <;> rfl, by constructor <;> rfl, rfl, rfl, rfl,
        fun j hj hne => Vector.getElem_set_ne hi hj (Ne.symm hne)⟩
    · exact ⟨by constructor <;> rfl, by constructor <;> rfl, rfl, rfl, rfl, fun _ _ _ => rfl⟩
  · obtain rfl := execWrounds_next h
    exact ⟨by constructor <;> rfl, by constructor <;> rfl, rfl, rfl, rfl⟩

/-! ### Secrets -/

/-- The state with other staging secrets and another key and nonce in the generator. -/
def State.withSecrets (s : State) (sk : Vector Byte 32) (sn : Vector Byte 12) (k : Vector Byte 32)
    (n : Vector Byte 12) : State :=
  { s with skey := sk, snonce := sn, key := k, nonce := n }

/-- `NEXTB` would not refill: there is no generator, a byte is left, or R152 refuses the refill. -/
def State.RefillsNothing (s : State) : Prop :=
  s.constructed = false ∨ s.cursor ≠ 64 ∨ (s.wrapped = true ∧ s.ctrOvf = .halt)

/-- A command turns other secrets into other secrets and is the same in everything else, unless it refills from another
key or nonce. Only `INITK` lets the staging secrets into key and nonce. -/
theorem exec_withSecrets {sk k : Vector Byte 32} {sn n : Vector Byte 12}
    (hn : i = .nextb → (k = s.key ∧ n = s.nonce) ∨ s.RefillsNothing) (h : exec i s = .next t) :
    ∃ sk' sn' k' n', exec i (s.withSecrets sk sn k n) = .next (t.withSecrets sk' sn' k' n') ∧
      (i ≠ .initk → k = s.key ∧ n = s.nonce → k' = t.key ∧ n' = t.nonce) := by
  cases i with
  | wkey idx imm =>
    rcases execWkey_next h with ⟨hi, rfl⟩ | ⟨hi, rfl⟩
    · exact ⟨_, sn, k, n, execWkey_of_lt hi imm _, fun _ => id⟩
    · exact ⟨sk, sn, k, n, execWkey_of_not_lt hi imm _, fun _ => id⟩
  | wnonce idx imm =>
    rcases execWnonce_next h with ⟨hi, rfl⟩ | ⟨hi, rfl⟩
    · exact ⟨sk, _, k, n, execWnonce_of_lt hi imm _, fun _ => id⟩
    · exact ⟨sk, sn, k, n, execWnonce_of_not_lt hi imm _, fun _ => id⟩
  | wrounds imm => rcases execWrounds_next h with rfl; exact ⟨sk, sn, k, n, rfl, fun _ => id⟩
  | initk =>
    rcases execInitk_next h with ⟨hl, rfl⟩ | ⟨hl, rfl⟩
    · exact ⟨sk, sn, sk, sn, execInitk_of_legal hl, absurd rfl⟩
    · exact ⟨sk, sn, k, n, execInitk_of_illegal hl, absurd rfl⟩
  | inite =>
    rcases execInite_next h with ⟨hl, rfl⟩ | ⟨hl, rfl⟩
    · exact ⟨sk, sn, k, n, execInite_of_legal hl, fun _ => id⟩
    · exact ⟨sk, sn, k, n, execInite_of_illegal hl, fun _ => id⟩
  | nextb =>
    rcases execNextb_next h with ⟨hc, rfl⟩ | ⟨hc, hlt, rfl⟩ | ⟨hc, h64, hw, ho, rfl⟩ | ⟨hc, h64, hgo, rfl⟩
    · exact ⟨sk, sn, k, n, execNextb_of_not_constructed hc, fun _ => id⟩
    · exact ⟨sk, sn, k, n, execNextb_of_lt (s := s.withSecrets sk sn k n) hc hlt, fun _ => id⟩
    · exact ⟨sk, sn, k, n, execNextb_of_exhausted hc h64 hw ho, fun _ => id⟩
    · rcases hn rfl with ⟨rfl, rfl⟩ | hc' | h64' | hw
      · exact ⟨sk, sn, s.key, s.nonce, execNextb_of_refill hc h64 hgo, fun _ => id⟩
      · exact absurd (hc.symm.trans hc') nofun
      · exact absurd h64 h64'
      · exact absurd hw hgo
  | rdstat => rcases execRdstat_next h with rfl; exact ⟨sk, sn, k, n, rfl, fun _ => id⟩
  | rdctr => rcases execRdctr_next h with rfl; exact ⟨sk, sn, k, n, rfl, fun _ => id⟩
  | zero => rcases execZero_next h with rfl; exact ⟨_, _, _, _, rfl, fun _ _ => ⟨rfl, rfl⟩⟩

/-- Settles O52, by `exec_withSecrets` with key and nonce as they are. -/
theorem stagingSecretsAreNotReadOut : Obligations.StagingSecretsAreNotReadOut := by
  intro i s t t' sk sn h h'
  obtain ⟨sk', sn', k', n', heq, hseed⟩ :=
    exec_withSecrets (sk := sk) (sn := sn) (fun _ => .inl ⟨rfl, rfl⟩) h
  cases heq.symm.trans h'
  refine ⟨rfl, rfl, rfl, fun hk => ?_⟩
  obtain ⟨hkey, hnonce⟩ := hseed hk ⟨rfl, rfl⟩
  exact ⟨rfl, hkey, hnonce, rfl, rfl, rfl, rfl, rfl⟩

/-- Settles O53, by `exec_withSecrets` with the staging secrets as they are. -/
theorem onlyARefillDependsOnKeyAndNonce : Obligations.OnlyARefillDependsOnKeyAndNonce := by
  intro i s t t' k n hn h h'
  obtain ⟨sk', sn', k', n', heq, -⟩ :=
    exec_withSecrets (sk := s.skey) (sn := s.snonce) (k := k) (n := n) (fun hi => .inr (hn hi)) h
  cases heq.symm.trans h'
  exact ⟨rfl, rfl, rfl, rfl, rfl, rfl, rfl, rfl⟩

end Sys2Proof.Machine
end

section
/-! SUPPORT. The quarter round slot by slot (41_permutation_engine.md R120 to R128). It is twice the same half round, of
two lines; and lines that share no slot commute, so quarter rounds that share none do. -/

namespace Sys2Proof.Machine

variable {a b c d a' b' c' d' x y z x' y' z' j : Fin 16}

/-! ### The initial state -/

/-- Settles O56: by O55 every byte of key and nonce, and the counter, can be read off the initial state. -/
theorem initialStateIsInjective : Obligations.InitialStateIsInjective := by
  intro key key' nonce nonce' ctr ctr' h
  obtain ⟨-, -, -, -, hkey, hctr, hnonce⟩ := initialStateLayout key nonce ctr
  obtain ⟨-, -, -, -, hkey', hctr', hnonce'⟩ := initialStateLayout key' nonce' ctr'
  rw [h] at hkey hctr hnonce
  exact ⟨Vector.ext fun j hj => (hkey j hj).symm.trans (hkey' j hj),
    Vector.ext fun j hj => (hnonce j hj).symm.trans (hnonce' j hj), hctr.symm.trans hctr'⟩

/-! ### The four slots -/

/-- The first two lines of R120, or the last two, with their rotation amounts. -/
def halfRound (w : Words) (a b c d : Fin 16) (m n : Nat) : Words := mixLine (mixLine w a b d m) c d b n

theorem quarterRound_eq_halfRounds (w : Words) (a b c d : Fin 16) :
    quarterRound w a b c d = halfRound (halfRound w a b c d 16 12) a b c d 8 7 := rfl

/-- What a half round writes, each slot in terms of those written before it. -/
theorem halfRound_slots (w : Words) (m n : Nat) (hab : a ≠ b) (hac : a ≠ c) (had : a ≠ d) (hbc : b ≠ c) (hbd : b ≠ d)
    (hcd : c ≠ d) {a1 d1 c1 b1 : Word} (ha1 : a1 = w[a] + w[b]) (hd1 : d1 = rotl (w[d] ^^^ a1) m)
    (hc1 : c1 = w[c] + d1) (hb1 : b1 = rotl (w[b] ^^^ c1) n) :
    (halfRound w a b c d m n)[a] = a1 ∧ (halfRound w a b c d m n)[b] = b1 ∧
    (halfRound w a b c d m n)[c] = c1 ∧ (halfRound w a b c d m n)[d] = d1 := by
  have hline_a : (mixLine w a b d m)[a] = a1 := by rw [mixLine_sum w m had, ha1]
  have hline_b : (mixLine w a b d m)[b] = w[b] := mixLine_other w m hab.symm hbd
  have hline_c : (mixLine w a b d m)[c] = w[c] := mixLine_other w m hac.symm hcd
  have hline_d : (mixLine w a b d m)[d] = d1 := by rw [mixLine_rot w m had, hd1, ha1]
  refine ⟨?_, ?_, ?_, ?_⟩
  · rw [halfRound, mixLine_other _ n hac hab, hline_a]
  · rw [halfRound, mixLine_rot _ n hbc.symm, hline_b, hline_c, hline_d, hb1, hc1]
  · rw [halfRound, mixLine_sum _ n hbc.symm, hline_c, hline_d, hc1]
  · rw [halfRound, mixLine_other _ n hcd.symm hbd.symm, hline_d]

theorem halfRound_other (w : Words) (m n : Nat) (ha : j ≠ a) (hb : j ≠ b) (hc : j ≠ c) (hd : j ≠ d) :
    (halfRound w a b c d m n)[j] = w[j] := by
  rw [halfRound, mixLine_other _ n hc hb, mixLine_other w m ha hd]

/-- Settles O57: the slots by `halfRound_slots` twice, the others by `halfRound_other` twice; the rotation is the
definition's own formula. -/
theorem quarterRoundMixesItsFourSlots : Obligations.QuarterRoundMixesItsFourSlots := by
  refine ⟨fun w a b c d hab hac had hbc hbd hcd => ⟨?_, fun j ha hb hc hd => ?_⟩, fun _ _ _ _ => rfl⟩
  · intro a1 d1 c1 b1 a2 d2 c2 b2 ha1 hd1 hc1 hb1 ha2 hd2 hc2 hb2
    obtain ⟨hwa, hwb, hwc, hwd⟩ := halfRound_slots w 16 12 hab hac had hbc hbd hcd ha1 hd1 hc1 hb1
    rw [quarterRound_eq_halfRounds]
    apply halfRound_slots _ 8 7 hab hac had hbc hbd hcd
    · rw [hwa, hwb, ha2]
    · rw [hwd, hd2]
    · rw [hwc, hc2]
    · rw [hwb, hb2]
  · rw [quarterRound_eq_halfRounds, halfRound_other _ 8 7 ha hb hc hd, halfRound_other w 16 12 ha hb hc hd]

/-! ### The order of quarter rounds -/

/-- A line's result at the slots it writes comes from its three slots only. -/
theorem mixLine_congr {v w : Words} (n : Nat) (hxz : x ≠ z) (hx : v[x] = w[x]) (hy : v[y] = w[y]) (hz : v[z] = w[z])
    (hj : j = x ∨ j = z) : (mixLine v x y z n)[j] = (mixLine w x y z n)[j] := by
  rcases hj with rfl | rfl
  · rw [mixLine_sum v n hxz, mixLine_sum w n hxz, hx, hy]
  · rw [mixLine_rot v n hxz, mixLine_rot w n hxz, hx, hy, hz]

/-- The slots a line writes do not depend on whether a line on other slots came before or comes after. -/
theorem mixLine_mixLine_slot (w : Words) (n n' : Nat) (hxz : x ≠ z) (h : List.Disjoint [x, y, z] [x', y', z'])
    (hj : j = x ∨ j = z) :
    (mixLine (mixLine w x y z n) x' y' z' n')[j] = (mixLine (mixLine w x' y' z' n') x y z n)[j] := by
  have hkeep (v : Words) {i : Fin 16} (hi : i ∈ [x, y, z]) : (mixLine v x' y' z' n')[i] = v[i] := by
    refine mixLine_other v n' ?_ ?_ <;> rintro rfl <;> exact h hi (by simp)
  have hmem : j ∈ [x, y, z] := by rcases hj with rfl | rfl <;> simp
  rw [hkeep _ hmem]
  exact mixLine_congr n hxz (hkeep w (by simp)).symm (hkeep w (by simp)).symm (hkeep w (by simp)).symm hj

theorem mixLine_commute (n n' : Nat) (hxz : x ≠ z) (hxz' : x' ≠ z') (h : List.Disjoint [x, y, z] [x', y', z']) :
    Function.Commute (mixLine · x' y' z' n') (mixLine · x y z n) := by
  refine fun w => words_ext fun j => ?_
  by_cases hj : j = x ∨ j = z
  · exact mixLine_mixLine_slot w n n' hxz h hj
  by_cases hj' : j = x' ∨ j = z'
  · exact (mixLine_mixLine_slot w n' n hxz' h.symm hj').symm
  · obtain ⟨hx, hz⟩ := not_or.mp hj
    obtain ⟨hx', hz'⟩ := not_or.mp hj'
    simp only [mixLine_other _ _ hx hz, mixLine_other _ _ hx' hz']

/-- What commutes with every line on the four slots commutes with the quarter round, which is four such lines. -/
theorem commute_quarterRound_of_lines {f : Words → Words}
    (h : ∀ x y z n, [x, y, z] ⊆ [a, b, c, d] → x ≠ z → Function.Commute f (mixLine · x y z n))
    (had : a ≠ d) (hcb : c ≠ b) : Function.Commute f (quarterRound · a b c d) := by
  have hline1 (n : Nat) := h a b d n (by simp) had
  have hline2 (n : Nat) := h c d b n (by simp) hcb
  exact (hline2 7).comp_right ((hline1 8).comp_right ((hline2 12).comp_right (hline1 16)))

theorem quarterRound_commute (had : a ≠ d) (hcb : c ≠ b) (had' : a' ≠ d') (hcb' : c' ≠ b')
    (h : List.Disjoint [a, b, c, d] [a', b', c', d']) :
    Function.Commute (quarterRound · a' b' c' d') (quarterRound · a b c d) := by
  refine commute_quarterRound_of_lines (fun x y z n hsub hxz => Function.Commute.symm ?_) had hcb
  refine commute_quarterRound_of_lines (fun x' y' z' n' hsub' hxz' => ?_) had' hcb'
  have hdisj := List.disjoint_of_subset_left hsub (List.disjoint_of_subset_right hsub' h)
  exact (mixLine_commute n n' hxz hxz' hdisj).symm

/-- The slots of one quarter round, in the order `a, b, c, d` of R120. -/
abbrev SlotGroup := Fin 16 × Fin 16 × Fin 16 × Fin 16

/-- The same as a list, to say that two groups share no slot. -/
def SlotGroup.slots (g : SlotGroup) : List (Fin 16) := [g.1, g.2.1, g.2.2.1, g.2.2.2]

/-- The quarter round on the group's slots. -/
def SlotGroup.mix (v : Words) (g : SlotGroup) : Words := quarterRound v g.1 g.2.1 g.2.2.1 g.2.2.2

/-- What the groups of a round have in common (R123, R124): no line of a group adds into the slot it rotates, and no two
groups share a slot. -/
def GroupsApart (gs : List SlotGroup) : Prop :=
  ∀ g ∈ gs, (g.1 ≠ g.2.2.2 ∧ g.2.2.1 ≠ g.2.1) ∧
    ∀ g' ∈ gs, g ≠ g' → ∀ i ∈ SlotGroup.slots g, ∀ j ∈ SlotGroup.slots g', i ≠ j

theorem foldl_mix_perm {l gs : List SlotGroup} (hp : l.Perm gs) (h : GroupsApart gs) (w : Words) :
    l.foldl SlotGroup.mix w = gs.foldl SlotGroup.mix w := by
  refine (hp.symm.foldl_eq' (fun g hg g' hg' v => ?_) w).symm
  by_cases heq : g = g'
  · rw [heq]
  · obtain ⟨⟨had, hcb⟩, hapart⟩ := h g hg
    obtain ⟨⟨had', hcb'⟩, -⟩ := h g' hg'
    exact quarterRound_commute had hcb had' hcb' (List.disjoint_iff_ne.mpr (hapart g' hg' heq)) v

/-- Settles O58: the groups of a column round share no slot, nor do those of a diagonal round, so
`foldl_mix_perm` puts them in the order of the round's definition. -/
theorem quarterRoundsOfARoundCommute : Obligations.QuarterRoundsOfARoundCommute := by
  refine fun w l => ⟨fun hp => ?_, fun hp => ?_⟩
  · exact foldl_mix_perm hp (by unfold GroupsApart; decide) w
  · exact foldl_mix_perm hp (by unfold GroupsApart; decide) w

end Sys2Proof.Machine
end
